-- ==== Sys2Proof/Word.lean ====
section
/-! DEFINITION. The word types of the CORE (00_scope.md R5: every quantity is unsigned; bit 0 is the
least significant bit). -/

namespace Sys2Proof

/-- One byte: a memory cell, a general register, a timer, the immediate KK (10_state.md R10, R18). -/
abbrev Byte := BitVec 8

/-- A 16-bit word: an opcode, PC, I, a stack entry (10_state.md R13, R15, R16; 30_encoding.md R60). -/
abbrev Word := BitVec 16

/-- The 12-bit address immediate NNN (30_encoding.md R61). -/
abbrev Imm12 := BitVec 12

/-- The 4-bit sprite height N (30_encoding.md R61). -/
abbrev Nibble := BitVec 4

/-- The number of a general register, 0 to 15 (10_state.md R10). -/
abbrev Reg := Fin 16

/-- The number of a key, 0x0 to 0xF (10_state.md R19, R25). -/
abbrev Key := Fin 16

end Sys2Proof
end

