-- ==== Sys2Proof/Config.lean ====
section
/-! DEFINITION. The implementation parameters of 00_scope.md R4, with the defaults "used by every rule
and test vector" of the spec, and the one free value, the random byte (42_alu_and_skip.md R135). -/

namespace Sys2Proof.Config

/-- MEM_SIZE: addresses 0x000 to 0xFFF (00_scope.md R4, 20_memory.md R40). -/
def memSize : Nat := 0x1000

/-- PROG_BASE: where `load` places an image and where execution starts (00_scope.md R4). -/
def progBase : Nat := 0x200

/-- MAX_IMAGE: 4096 − 512 bytes (00_scope.md R4, 20_memory.md R48). -/
def maxImage : Nat := 3584

/-- FONT, an OPEN parameter at its default: the table of 10_state.md R14 (D3), glyph by glyph. -/
def glyphs : List (List Byte) :=
  [[0xF0, 0x90, 0x90, 0x90, 0xF0], [0x20, 0x60, 0x20, 0x20, 0x70],
   [0xF0, 0x10, 0xF0, 0x80, 0xF0], [0xF0, 0x10, 0xF0, 0x10, 0xF0],
   [0x90, 0x90, 0xF0, 0x10, 0x10], [0xF0, 0x80, 0xF0, 0x10, 0xF0],
   [0xF0, 0x80, 0xF0, 0x90, 0xF0], [0xF0, 0x10, 0x20, 0x40, 0x40],
   [0xF0, 0x90, 0xF0, 0x90, 0xF0], [0xF0, 0x90, 0xF0, 0x10, 0xF0],
   [0xF0, 0x90, 0xF0, 0x90, 0x90], [0xE0, 0x90, 0xE0, 0x90, 0xE0],
   [0xF0, 0x80, 0x80, 0x80, 0xF0], [0xE0, 0x90, 0x90, 0x90, 0xE0],
   [0xF0, 0x80, 0xF0, 0x80, 0xF0], [0xF0, 0x80, 0xF0, 0x80, 0x80]]

/-- The two values of SHIFT_SRC: the register SHR and SHL shift (D9). -/
inductive ShiftSource where
  /-- Vx, shifted in place. -/
  | vx
  /-- Vy, its shifted value going to Vx. -/
  | vy
  deriving DecidableEq, Repr

/-- SHIFT_SRC, an OPEN parameter at its default VX (00_scope.md R4, D9). -/
def shiftSrc : ShiftSource := .vx

/-- LOW_MEM_WRITABLE, an OPEN parameter at its default false (00_scope.md R4, D21). -/
def lowMemWritable : Bool := false

/-- CLS_SETS_DRAW, an OPEN parameter at its default true (00_scope.md R4, D17). -/
def clsSetsDraw : Bool := true

/-- The free value of the machine: the n-th byte the host's `rnd` input brings where the State lists
none, "any value 0..255", "under no law" (42_alu_and_skip.md R135, D28; log 1). -/
opaque rnd : Nat → Byte

end Sys2Proof.Config
end

