-- ==== Sys2Proof/Machine/State.lean ====
section
/-! DEFINITION. The architectural state of the CORE (10_state.md section 1), why a step can stop
(60_exceptions.md R190 to R193), and the state after reset (70_reset_and_hazards.md R220). -/

namespace Sys2Proof.Machine

/-- MEM as a canonical list: addresses strictly rising, no cell equal to the reset contents of its
address (`Memory.resetByte`, `Memory.wf`). -/
abbrev Memory := List Host.Cell

/-- FB: 32 rows of 64 pixels; bit x of row y is pixel (x, y), that is FB[y·64 + x] (10_state.md R17). -/
abbrev FrameBuffer := Vector (BitVec 64) 32

/-- The kinds of OutOfRangeError (60_exceptions.md R192). -/
inductive RangeKind where
  /-- PC > 0xFFE at a fetch. -/
  | fetch
  /-- DRW or LD Vx,[I] would read above 0xFFF. -/
  | memRead
  /-- LD B,Vx or LD [I],Vx would write above 0xFFF. -/
  | memWrite
  /-- LD B,Vx or LD [I],Vx would write below 0x200. -/
  | memProtect
  /-- RET with an empty stack. -/
  | stack
  /-- SKP or SKNP on a key number above 15. -/
  | key
  /-- LD F,Vx on a digit above 15. -/
  | glyph
  /-- load of an image of more than 3584 bytes. -/
  | load
  deriving DecidableEq, Repr

/-- The three error classes of 60_exceptions.md R190.
Each leaves the state as it was before the operation (R196). -/
inductive Fault where
  /-- DecodeError(op): a step that fetches a word of no instruction, and every SYS instruction
  (R191, R100).
  Safe: the spec ends the operation with this error, and the model stops where the host may go on. -/
  | decodeError (op : Word)
  /-- OutOfRangeError(kind, value): fetch, DRW, LD B, LD [I], LD Vx,[I], RET, SKP, SKNP, LD F and
  load (R192).
  Safe: the spec ends the operation with this error. -/
  | outOfRange (kind : RangeKind) (value : Nat)
  /-- ResourceExhausted(op): CALL with a full stack (R193).
  Safe: the spec ends the operation with this error. -/
  | resourceExhausted (op : Word)
  deriving DecidableEq, Repr

/-- Why the model itself gives a step no meaning. -/
inductive Refusal where
  /-- The instruction has no meaning in this model yet; raised by no arm of `exec` (all are
  modelled).
  Safe: nothing can be concluded of such a step. -/
  | notModelled (mnemonic : String)
  deriving DecidableEq, Repr

/-- The state of the CORE, every piece of 10_state.md section 1, and the two fields that carry the
`rnd` input of the coming steps (the model's own; log 1). -/
structure State where
  /-- MEM[0x000..0xFFF] (20_memory.md R40). -/
  mem : Memory
  /-- V[0..15] (10_state.md R10). -/
  regs : Vector Byte 16
  /-- I (10_state.md R13). -/
  i : Word
  /-- PC (10_state.md R15). -/
  pc : Word
  /-- STACK[0..15] (10_state.md R16). -/
  stack : Vector Word 16
  /-- SP, the stack depth 0 to 16 (10_state.md R16, D37). -/
  sp : Fin 17
  /-- FB (10_state.md R17). -/
  fb : FrameBuffer
  /-- DT (10_state.md R18). -/
  dt : Byte
  /-- ST (10_state.md R18). -/
  st : Byte
  /-- KEYS[0..15] (10_state.md R19). -/
  keys : Vector Bool 16
  /-- KW (10_state.md R20). -/
  kw : Bool
  /-- KWREG (10_state.md R20). -/
  kwReg : Reg
  /-- DRAW (10_state.md R21). -/
  draw : Bool
  /-- SND_END (10_state.md R22). -/
  sndEnd : Bool
  /-- The bytes the `rnd` input is known to bring at the coming executions of RND (log 1). -/
  rndInputs : List Byte
  /-- How many free bytes of `Config.rnd` RND has drawn (log 1). -/
  rndCount : Nat
  deriving DecidableEq, Repr

/-- The machine right after reset (70_reset_and_hazards.md R220): memory lists nothing, so it reads
as the font and zeros. -/
def State.reset : State where
  mem := []
  regs := Vector.replicate 16 0
  i := 0
  pc := 0x0200
  stack := Vector.replicate 16 0
  sp := 0
  fb := Vector.replicate 32 0
  dt := 0
  st := 0
  keys := Vector.replicate 16 false
  kw := false
  kwReg := 0
  draw := false
  sndEnd := false
  rndInputs := []
  rndCount := 0

end Sys2Proof.Machine
end

