-- ==== Sys2Proof/Machine/Ops.lean ====
section
/-! DEFINITION. The named operations over memory, registers and the other state, the report of an
error, and the phases of a step around an instruction. -/

namespace Sys2Proof.Machine

/-! ## Memory (20_memory.md) -/

/-- What an address holds after reset, and so what an unlisted address reads as: the font at 0x000 to
0x04F, zero above (10_state.md R14, 70_reset_and_hazards.md R220). -/
def Memory.resetByte (a : Nat) : Byte := Config.glyphs.flatten.getD a 0

/-- The byte at an address. -/
def Memory.read : Memory → Nat → Byte
  | [], a => Memory.resetByte a
  | c :: m, a => if c.1 = a then c.2 else Memory.read m a

/-- MemRead(a, n): the bytes at a to a+n−1 in ascending order (00_scope.md R6).
The caller has checked the range. -/
def Memory.readBlock (m : Memory) (a n : Nat) : List Byte :=
  (List.range n).map fun k => m.read (a + k)

/-- The canonical cells of consecutive bytes that start at an address. -/
def Memory.cells (a : Nat) : List Byte → Memory
  | [] => []
  | b :: bs =>
    if b = Memory.resetByte a then Memory.cells (a + 1) bs
    else (a, b) :: Memory.cells (a + 1) bs

/-- MemWrite(a, n, bs): stores the bytes at a to a+n−1 (00_scope.md R6), keeping the list canonical.
The caller has checked the range. -/
def Memory.writeBlock (m : Memory) (a : Nat) (bs : List Byte) : Memory :=
  m.filter (fun c => c.1 < a) ++ Memory.cells a bs ++ m.filter (fun c => a + bs.length ≤ c.1)

/-- The canonical form: addresses strictly rising and inside the 4096 bytes, and no cell equal to
what its address reads as unlisted. -/
abbrev Memory.wf (m : Memory) : Prop :=
  m.Pairwise (fun c d => c.1 < d.1) ∧
    ∀ c ∈ m, c.1 < Config.memSize ∧ c.2 ≠ Memory.resetByte c.1

/-! ## Reading and writing the state -/

/-- V[r] (10_state.md R10). -/
def State.v (s : State) (r : Reg) : Byte := s.regs[r.val]

/-- VF, the sixteenth register (10_state.md R11). -/
def vf : Reg := 15

/-- V[r] <- b. -/
def State.setV (s : State) (r : Reg) (b : Byte) : State := { s with regs := s.regs.set r.val b }

/-- MEM <- m. -/
def State.setMem (s : State) (m : Memory) : State := { s with mem := m }

/-- V[0..15] <- r. -/
def State.setRegs (s : State) (r : Vector Byte 16) : State := { s with regs := r }

/-- I <- w. -/
def State.setI (s : State) (w : Word) : State := { s with i := w }

/-- PC <- w. -/
def State.setPc (s : State) (w : Word) : State := { s with pc := w }

/-- STACK[0..15] <- k. -/
def State.setStack (s : State) (k : Vector Word 16) : State := { s with stack := k }

/-- SP <- d. -/
def State.setSp (s : State) (d : Fin 17) : State := { s with sp := d }

/-- FB <- f. -/
def State.setFb (s : State) (f : FrameBuffer) : State := { s with fb := f }

/-- DT <- b. -/
def State.setDt (s : State) (b : Byte) : State := { s with dt := b }

/-- ST <- b. -/
def State.setSt (s : State) (b : Byte) : State := { s with st := b }

/-- KEYS[0..15] <- k. -/
def State.setKeys (s : State) (k : Vector Bool 16) : State := { s with keys := k }

/-- KW <- b. -/
def State.setKw (s : State) (b : Bool) : State := { s with kw := b }

/-- KWREG <- r. -/
def State.setKwReg (s : State) (r : Reg) : State := { s with kwReg := r }

/-- DRAW <- b. -/
def State.setDraw (s : State) (b : Bool) : State := { s with draw := b }

/-- SND_END <- b. -/
def State.setSndEnd (s : State) (b : Bool) : State := { s with sndEnd := b }

/-- The bytes the `rnd` input is known to bring (log 1). -/
def State.setRndInputs (s : State) (l : List Byte) : State := { s with rndInputs := l }

/-- How many free bytes have been drawn (log 1). -/
def State.setRndCount (s : State) (n : Nat) : State := { s with rndCount := n }

/-! ## PC discipline (40_step_and_dispatch.md R87) -/

/-- The sequential class: PC <- (PC + 2) mod 65536. -/
def State.advance (s : State) : State := s.setPc (s.pc + 2)

/-- The skip class: PC + 4 if the condition holds, else PC + 2, modulo 65536. -/
def State.skipIf (s : State) (c : Bool) : State := s.setPc (s.pc + if c then 4 else 2)

/-! ## Errors (60_exceptions.md) -/

/-- `raise E(info)`: the operation ends with the error, and no state is changed (00_scope.md R6,
60_exceptions.md R196).
The machine has no trap entry, no handler, no saved register and no return from one (R198): this is
the whole of taking an exception on this hardware. -/
def raise (f : Fault) : Host.Outcome State Fault Refusal := .fault f

/-- The range check of 20_memory.md R45, on the last address an instruction would touch, in unbounded
integers. -/
def requireInRange (kind : RangeKind) (last : Nat)
    (k : Host.Outcome State Fault Refusal) : Host.Outcome State Fault Refusal :=
  if 0xFFF < last then raise (.outOfRange kind last) else k

/-- The store protection of 20_memory.md R46 on the first address written; the parameter is
LOW_MEM_WRITABLE. -/
def requireWritable (lowWritable : Bool) (base : Nat)
    (k : Host.Outcome State Fault Refusal) : Host.Outcome State Fault Refusal :=
  if base < 0x200 ∧ lowWritable = false then raise (.outOfRange .memProtect base) else k

/-- Both checks of a store of the bytes `base` to `last`, in the order of 60_exceptions.md R195; the
parameter is LOW_MEM_WRITABLE. -/
def requireStorable (lowWritable : Bool) (base last : Nat)
    (k : Host.Outcome State Fault Refusal) : Host.Outcome State Fault Refusal :=
  requireInRange .memWrite last (requireWritable lowWritable base k)

/-! ## Call stack (10_state.md R16) -/

/-- Push: STACK[SP] <- ret, then SP <- SP + 1; with SP = 16 the error given instead (41_control_flow.md
R103). -/
def State.push (s : State) (ret : Word) (full : Fault)
    (k : State → Host.Outcome State Fault Refusal) : Host.Outcome State Fault Refusal :=
  if h : s.sp.val < 16 then
    k ((s.setStack (s.stack.set s.sp.val ret)).setSp ⟨s.sp.val + 1, by omega⟩)
  else raise full

/-- Pop: SP <- SP − 1, then the continuation gets STACK[SP]; with SP = 0 OutOfRangeError(STACK, 0)
(41_control_flow.md R101).
The entry keeps its value. -/
def State.pop (s : State)
    (k : Word → State → Host.Outcome State Fault Refusal) : Host.Outcome State Fault Refusal :=
  if h : 0 < s.sp.val then
    k (s.stack[s.sp.val - 1]'(by omega)) (s.setSp ⟨s.sp.val - 1, by omega⟩)
  else raise (.outOfRange .stack 0)

/-! ## The random input (42_alu_and_skip.md R135) -/

/-- The byte `rnd` brings when RND samples it: the next one listed, or a free one (log 1). -/
def State.rndByte (s : State) : Byte :=
  match s.rndInputs with
  | r :: _ => r
  | [] => Config.rnd s.rndCount

/-- The sampled byte is used up. -/
def State.rndDrawn (s : State) : State :=
  match s.rndInputs with
  | _ :: rest => s.setRndInputs rest
  | [] => s.setRndCount (s.rndCount + 1)

/-! ## The phases of a step around the instruction (40_step_and_dispatch.md R80) -/

/-- Phase 1: a step made while KW = 1 is blocked (R81). -/
def State.blocked (s : State) : Bool := s.kw

/-- Phase 5: DRAW <- 0 (R85). -/
def State.clearDraw (s : State) : State := s.setDraw false

/-- Phase 7, the timer phase (R90). -/
def State.timerPhase (s : State) : State :=
  ((s.setDt (if s.dt ≠ 0 then s.dt - 1 else s.dt)).setSt
    (if s.st ≠ 0 then s.st - 1 else s.st)).setSndEnd (s.st == 1)

/-- The end of a step that executed an instruction: an error stands as it is (R84), a next state goes
through the timer phase (R90). -/
def finishStep : Host.Outcome State Fault Refusal → Host.Outcome State Fault Refusal
  | .next s => .next s.timerPhase
  | .fault f => .fault f
  | .refused r => .refused r

end Sys2Proof.Machine
end

