-- ==== Sys2Proof/Machine/Flags.lean ====
section
/-! DEFINITION. The one flag, VF: how each flagged operation computes it, and the order in which a
result and the flag are written (10_state.md R11, R12; 42_alu_and_skip.md R131). -/

namespace Sys2Proof.Machine

/-- The byte VF takes: 0 or 1, never another value (10_state.md R11). -/
def flagByte (c : Bool) : Byte := if c then 1 else 0

/-- Carry of ADD Vx,Vy: the unsigned sum exceeds 255 (42_alu_and_skip.md R120). -/
def carryOut (a b : Byte) : Bool := decide (255 < a.toNat + b.toNat)

/-- Not-borrow of `a − b`: a ≥ b (42_alu_and_skip.md R121, R123). -/
def notBorrow (a b : Byte) : Bool := decide (b.toNat ≤ a.toNat)

/-- The bit SHR shifts out: bit 0 of the source (42_alu_and_skip.md R122). -/
def lowBit (a : Byte) : Bool := a.getLsbD 0

/-- The bit SHL shifts out: bit 7 of the source (42_alu_and_skip.md R124). -/
def highBit (a : Byte) : Bool := a.getLsbD 7

/-- V[x] <- result, then VF <- flag, so that with x = F the flag is what VF holds (10_state.md R12). -/
def State.writeFlagged (s : State) (x : Reg) (result : Byte) (flag : Bool) : State :=
  (s.setV x result).setV vf (flagByte flag)

end Sys2Proof.Machine
end

