-- ==== Sys2Proof/Machine/Operands.lean ====
section
/-! DEFINITION. The operand forms: immediates, the memory at I plus a counter, block transfers, key
and glyph numbers, the shifted register, decimal digits (30_encoding.md R63). -/

namespace Sys2Proof.Machine

/-- zext_16(NNN) (30_encoding.md R63). -/
def zextNNN (nnn : Imm12) : Word := nnn.setWidth 16

/-- zext_16 of a register's byte (41_control_flow.md R104, 45_index_and_memory.md R171). -/
def zextByte (b : Byte) : Word := b.setWidth 16

/-- The only addressing mode: I plus a counter, in unbounded integers (45_index_and_memory.md,
opening; 20_memory.md R45). -/
def State.addr (s : State) (k : Nat) : Nat := s.i.toNat + k

/-- The registers V[0], …, V[x] in ascending order (45_index_and_memory.md R175). -/
def State.regBlock (s : State) (x : Reg) : List Byte := s.regs.toList.take (x.val + 1)

/-- V[k] <- the first byte, V[k+1] <- the next, … (45_index_and_memory.md R176). -/
def writeRegBlock (regs : Vector Byte 16) (k : Nat) : List Byte → Vector Byte 16
  | [] => regs
  | b :: bs => writeRegBlock (regs.setIfInBounds k b) (k + 1) bs

/-- An index operand that must be 0 to 15, else OutOfRangeError(kind, value): the key number of SKP
and SKNP, the glyph number of LD F (44_keys_and_timers.md R150, 45_index_and_memory.md R172). -/
def requireIndex (kind : RangeKind) (b : Byte)
    (k : Fin 16 → Host.Outcome State Fault Refusal) : Host.Outcome State Fault Refusal :=
  if h : b.toNat < 16 then k ⟨b.toNat, h⟩ else raise (.outOfRange kind b.toNat)

/-- The register SHR and SHL read, by the parameter SHIFT_SRC (42_alu_and_skip.md R122, R124). -/
def State.shiftOperand (s : State) (src : Config.ShiftSource) (x y : Reg) : Byte :=
  match src with
  | .vx => s.v x
  | .vy => s.v y

/-- The address of glyph d: 5·d (10_state.md R14, 45_index_and_memory.md R172). -/
def glyphAddr (d : Fin 16) : Word := BitVec.ofNat 16 (5 * d.val)

/-- The hundreds, tens and ones of a byte (45_index_and_memory.md R173). -/
def decimalDigits (a : Byte) : List Byte :=
  [BitVec.ofNat 8 (a.toNat / 100), BitVec.ofNat 8 (a.toNat / 10 % 10), BitVec.ofNat 8 (a.toNat % 10)]

end Sys2Proof.Machine
end

