-- ==== Sys2Proof/Machine/Alu.lean ====
section
/-! DEFINITION. Immediate, register-to-register and random instructions (42_alu_and_skip.md sections
2, 3 and 5).
All operands are read from the state before anything is written (40_step_and_dispatch.md R88). -/

namespace Sys2Proof.Machine

/-- V[x] <- b and the sequential advance: the shape of every unflagged instruction here. -/
def writeUnflagged (x : Reg) (b : Byte) (s : State) : Host.Outcome State Fault Refusal :=
  .next (s.setV x b).advance

/-- V[x] <- b, VF <- flag and the sequential advance: the shape of every flagged instruction
(10_state.md R12). -/
def writeFlaggedResult (x : Reg) (b : Byte) (flag : Bool) (s : State) :
    Host.Outcome State Fault Refusal :=
  .next (s.writeFlagged x b flag).advance

/-- LD Vx, byte (R114). -/
def execLdByte (x : Reg) (kk : Byte) (s : State) : Host.Outcome State Fault Refusal :=
  writeUnflagged x kk s

/-- ADD Vx, byte: modulo 256, no flag (R115). -/
def execAddByte (x : Reg) (kk : Byte) (s : State) : Host.Outcome State Fault Refusal :=
  writeUnflagged x (s.v x + kk) s

/-- LD Vx, Vy (R116). -/
def execLdReg (x y : Reg) (s : State) : Host.Outcome State Fault Refusal :=
  writeUnflagged x (s.v y) s

/-- OR Vx, Vy (R117). -/
def execOrReg (x y : Reg) (s : State) : Host.Outcome State Fault Refusal :=
  writeUnflagged x (s.v x ||| s.v y) s

/-- AND Vx, Vy (R118). -/
def execAndReg (x y : Reg) (s : State) : Host.Outcome State Fault Refusal :=
  writeUnflagged x (s.v x &&& s.v y) s

/-- XOR Vx, Vy (R119). -/
def execXorReg (x y : Reg) (s : State) : Host.Outcome State Fault Refusal :=
  writeUnflagged x (s.v x ^^^ s.v y) s

/-- ADD Vx, Vy: VF = carry (R120). -/
def execAddReg (x y : Reg) (s : State) : Host.Outcome State Fault Refusal :=
  writeFlaggedResult x (s.v x + s.v y) (carryOut (s.v x) (s.v y)) s

/-- SUB Vx, Vy: Vx − Vy, VF = not-borrow (R121). -/
def execSubReg (x y : Reg) (s : State) : Host.Outcome State Fault Refusal :=
  writeFlaggedResult x (s.v x - s.v y) (notBorrow (s.v x) (s.v y)) s

/-- SHR: the source shifted right by one, VF = the bit shifted out (R122); the parameter is
SHIFT_SRC. -/
def shiftRight (src : Config.ShiftSource) (x y : Reg) (s : State) :
    Host.Outcome State Fault Refusal :=
  writeFlaggedResult x (s.shiftOperand src x y >>> 1) (lowBit (s.shiftOperand src x y)) s

/-- SHR Vx, Vy in braces (R122). -/
def execShr (x y : Reg) (s : State) : Host.Outcome State Fault Refusal :=
  shiftRight Config.shiftSrc x y s

/-- SUBN Vx, Vy: Vy − Vx into Vx, VF = not-borrow (R123). -/
def execSubn (x y : Reg) (s : State) : Host.Outcome State Fault Refusal :=
  writeFlaggedResult x (s.v y - s.v x) (notBorrow (s.v y) (s.v x)) s

/-- SHL: the source shifted left by one modulo 256, VF = the bit shifted out (R124); the parameter is
SHIFT_SRC. -/
def shiftLeft (src : Config.ShiftSource) (x y : Reg) (s : State) :
    Host.Outcome State Fault Refusal :=
  writeFlaggedResult x (s.shiftOperand src x y <<< 1) (highBit (s.shiftOperand src x y)) s

/-- SHL Vx, Vy in braces (R124). -/
def execShl (x y : Reg) (s : State) : Host.Outcome State Fault Refusal :=
  shiftLeft Config.shiftSrc x y s

/-- RND Vx, byte: the sampled byte AND KK (R135). -/
def execRnd (x : Reg) (kk : Byte) (s : State) : Host.Outcome State Fault Refusal :=
  writeUnflagged x (s.rndByte &&& kk) s.rndDrawn

end Sys2Proof.Machine
end

