-- ==== Sys2Proof/Syntax.lean ====
section
/-! DEFINITION. The instructions: one constructor per row of spec/opcode_table.json, in the order of
30_encoding.md R65. -/

namespace Sys2Proof

/-- The 35 instructions of 30_encoding.md R65.
The operands are the fields of R61 that the row's format uses (R62). -/
inductive Instr where
  /-- SYS addr, 0NNN other than 00E0 and 00EE (41_control_flow.md R100). -/
  | sys (nnn : Imm12)
  /-- CLS, 00E0 (43_draw.md R140). -/
  | cls
  /-- RET, 00EE (41_control_flow.md R101). -/
  | ret
  /-- JP addr, 1NNN (41_control_flow.md R102). -/
  | jp (nnn : Imm12)
  /-- CALL addr, 2NNN (41_control_flow.md R103). -/
  | call (nnn : Imm12)
  /-- SE Vx, byte, 3XKK (42_alu_and_skip.md R110). -/
  | seByte (x : Reg) (kk : Byte)
  /-- SNE Vx, byte, 4XKK (42_alu_and_skip.md R111). -/
  | sneByte (x : Reg) (kk : Byte)
  /-- SE Vx, Vy, 5XY0 (42_alu_and_skip.md R112). -/
  | seReg (x y : Reg)
  /-- LD Vx, byte, 6XKK (42_alu_and_skip.md R114). -/
  | ldByte (x : Reg) (kk : Byte)
  /-- ADD Vx, byte, 7XKK (42_alu_and_skip.md R115). -/
  | addByte (x : Reg) (kk : Byte)
  /-- LD Vx, Vy, 8XY0 (42_alu_and_skip.md R116). -/
  | ldReg (x y : Reg)
  /-- OR Vx, Vy, 8XY1 (42_alu_and_skip.md R117). -/
  | orReg (x y : Reg)
  /-- AND Vx, Vy, 8XY2 (42_alu_and_skip.md R118). -/
  | andReg (x y : Reg)
  /-- XOR Vx, Vy, 8XY3 (42_alu_and_skip.md R119). -/
  | xorReg (x y : Reg)
  /-- ADD Vx, Vy, 8XY4 (42_alu_and_skip.md R120). -/
  | addReg (x y : Reg)
  /-- SUB Vx, Vy, 8XY5 (42_alu_and_skip.md R121). -/
  | subReg (x y : Reg)
  /-- SHR Vx, Vy in braces, 8XY6 (42_alu_and_skip.md R122). -/
  | shr (x y : Reg)
  /-- SUBN Vx, Vy, 8XY7 (42_alu_and_skip.md R123). -/
  | subn (x y : Reg)
  /-- SHL Vx, Vy in braces, 8XYE (42_alu_and_skip.md R124). -/
  | shl (x y : Reg)
  /-- SNE Vx, Vy, 9XY0 (42_alu_and_skip.md R113). -/
  | sneReg (x y : Reg)
  /-- LD I, addr, ANNN (45_index_and_memory.md R170). -/
  | ldI (nnn : Imm12)
  /-- JP V0, addr, BNNN (41_control_flow.md R104). -/
  | jpV0 (nnn : Imm12)
  /-- RND Vx, byte, CXKK (42_alu_and_skip.md R135). -/
  | rnd (x : Reg) (kk : Byte)
  /-- DRW Vx, Vy, nibble, DXYN (43_draw.md R141). -/
  | drw (x y : Reg) (n : Nibble)
  /-- SKP Vx, EX9E (44_keys_and_timers.md R150). -/
  | skp (x : Reg)
  /-- SKNP Vx, EXA1 (44_keys_and_timers.md R151). -/
  | sknp (x : Reg)
  /-- LD Vx, DT, FX07 (44_keys_and_timers.md R153). -/
  | ldVxDt (x : Reg)
  /-- LD Vx, K, FX0A (44_keys_and_timers.md R152). -/
  | ldVxK (x : Reg)
  /-- LD DT, Vx, FX15 (44_keys_and_timers.md R154). -/
  | ldDtVx (x : Reg)
  /-- LD ST, Vx, FX18 (44_keys_and_timers.md R155). -/
  | ldStVx (x : Reg)
  /-- ADD I, Vx, FX1E (45_index_and_memory.md R171). -/
  | addI (x : Reg)
  /-- LD F, Vx, FX29 (45_index_and_memory.md R172). -/
  | ldF (x : Reg)
  /-- LD B, Vx, FX33 (45_index_and_memory.md R173). -/
  | ldB (x : Reg)
  /-- LD [I], Vx, FX55 (45_index_and_memory.md R175). -/
  | storeRegs (x : Reg)
  /-- LD Vx, [I], FX65 (45_index_and_memory.md R176). -/
  | loadRegs (x : Reg)
  deriving DecidableEq, Repr

end Sys2Proof
end

