-- ==== Sys2Proof/WellFormed.lean ====
section
/-! DEFINITION. The one restriction the types of the operands do not already state: SYS takes every
12-bit address but the two that are CLS and RET (30_encoding.md R65 row 1, column Pattern). -/

namespace Sys2Proof

/-- The instruction is one some opcode decodes to.
Register numbers, N, KK and NNN are in range by their types (30_encoding.md R61); a SYS word is no
CLS or RET word (R65 row 1). -/
def Instr.wellFormed : Instr → Bool
  | .sys nnn => nnn != 0x0E0#12 && nnn != 0x0EE#12
  | .cls | .ret | .jp _ | .call _ | .seByte _ _ | .sneByte _ _ | .seReg _ _ | .ldByte _ _
  | .addByte _ _ | .ldReg _ _ | .orReg _ _ | .andReg _ _ | .xorReg _ _ | .addReg _ _
  | .subReg _ _ | .shr _ _ | .subn _ _ | .shl _ _ | .sneReg _ _ | .ldI _ | .jpV0 _ | .rnd _ _
  | .drw _ _ _ | .skp _ | .sknp _ | .ldVxDt _ | .ldVxK _ | .ldDtVx _ | .ldStVx _ | .addI _
  | .ldF _ | .ldB _ | .storeRegs _ | .loadRegs _ => true

end Sys2Proof
end

