-- ==== Sys2Proof/Decode.lean ====
section
/-! DEFINITION. The decoder of 30_encoding.md R64 and R65, total on words and on bytes, and the
encoder written from the same table. -/

namespace Sys2Proof

/-! ## Fields (30_encoding.md R61) -/

/-- F, op[15:12]. -/
def fieldF (op : Word) : BitVec 4 := op.extractLsb' 12 4

/-- X, op[11:8]. -/
def fieldX (op : Word) : Reg := (op.extractLsb' 8 4).toFin

/-- Y, op[7:4]. -/
def fieldY (op : Word) : Reg := (op.extractLsb' 4 4).toFin

/-- N, op[3:0]. -/
def fieldN (op : Word) : Nibble := op.extractLsb' 0 4

/-- KK, op[7:0]. -/
def fieldKK (op : Word) : Byte := op.extractLsb' 0 8

/-- NNN, op[11:0]. -/
def fieldNNN (op : Word) : Imm12 := op.extractLsb' 0 12

/-! ## Words and bytes (20_memory.md R42) -/

/-- The two bytes of a word as memory holds them, the high byte at the lower address. -/
def wordBytes (op : Word) : List Byte := [op.extractLsb' 8 8, op.extractLsb' 0 8]

/-- The word two bytes in ascending address order make: `hi ++ lo`. -/
def wordOfBytes (hi lo : Byte) : Word := hi ++ lo

/-! ## Decoding (30_encoding.md R64, R67, R68) -/

/-- Why bytes are no instruction. -/
inductive Reject where
  /-- The word matches no row of 30_encoding.md R65; a step reports DecodeError(op) (R68). -/
  | noSuchInstruction (op : Word)
  /-- Fewer than the two bytes every instruction has (30_encoding.md R60). -/
  | truncated
  deriving DecidableEq, Repr

/-- Family 0x0 decodes on the whole word: every word that is not CLS or RET is a SYS word. -/
def decodeFamily0 (op : Word) : Instr :=
  if op = 0x00E0#16 then .cls
  else if op = 0x00EE#16 then .ret
  else .sys (fieldNNN op)

/-- Family 0x8 decodes on the low nibble. -/
def decodeFamily8 (op : Word) : Except Reject Instr :=
  if fieldN op = 0x0#4 then .ok (.ldReg (fieldX op) (fieldY op))
  else if fieldN op = 0x1#4 then .ok (.orReg (fieldX op) (fieldY op))
  else if fieldN op = 0x2#4 then .ok (.andReg (fieldX op) (fieldY op))
  else if fieldN op = 0x3#4 then .ok (.xorReg (fieldX op) (fieldY op))
  else if fieldN op = 0x4#4 then .ok (.addReg (fieldX op) (fieldY op))
  else if fieldN op = 0x5#4 then .ok (.subReg (fieldX op) (fieldY op))
  else if fieldN op = 0x6#4 then .ok (.shr (fieldX op) (fieldY op))
  else if fieldN op = 0x7#4 then .ok (.subn (fieldX op) (fieldY op))
  else if fieldN op = 0xE#4 then .ok (.shl (fieldX op) (fieldY op))
  else .error (.noSuchInstruction op)

/-- Family 0xE decodes on the low byte. -/
def decodeFamilyE (op : Word) : Except Reject Instr :=
  if fieldKK op = 0x9E#8 then .ok (.skp (fieldX op))
  else if fieldKK op = 0xA1#8 then .ok (.sknp (fieldX op))
  else .error (.noSuchInstruction op)

/-- Family 0xF decodes on the low byte. -/
def decodeFamilyF (op : Word) : Except Reject Instr :=
  if fieldKK op = 0x07#8 then .ok (.ldVxDt (fieldX op))
  else if fieldKK op = 0x0A#8 then .ok (.ldVxK (fieldX op))
  else if fieldKK op = 0x15#8 then .ok (.ldDtVx (fieldX op))
  else if fieldKK op = 0x18#8 then .ok (.ldStVx (fieldX op))
  else if fieldKK op = 0x1E#8 then .ok (.addI (fieldX op))
  else if fieldKK op = 0x29#8 then .ok (.ldF (fieldX op))
  else if fieldKK op = 0x33#8 then .ok (.ldB (fieldX op))
  else if fieldKK op = 0x55#8 then .ok (.storeRegs (fieldX op))
  else if fieldKK op = 0x65#8 then .ok (.loadRegs (fieldX op))
  else .error (.noSuchInstruction op)

/-- The decode algorithm of 30_encoding.md R64, dispatching on the top nibble.
SYS words are instructions here; their meaning raises the DecodeError (41_control_flow.md R100). -/
def decodeWord (op : Word) : Except Reject Instr :=
  if fieldF op = 0x0#4 then .ok (decodeFamily0 op)
  else if fieldF op = 0x1#4 then .ok (.jp (fieldNNN op))
  else if fieldF op = 0x2#4 then .ok (.call (fieldNNN op))
  else if fieldF op = 0x3#4 then .ok (.seByte (fieldX op) (fieldKK op))
  else if fieldF op = 0x4#4 then .ok (.sneByte (fieldX op) (fieldKK op))
  else if fieldF op = 0x5#4 then
    if fieldN op = 0x0#4 then .ok (.seReg (fieldX op) (fieldY op))
    else .error (.noSuchInstruction op)
  else if fieldF op = 0x6#4 then .ok (.ldByte (fieldX op) (fieldKK op))
  else if fieldF op = 0x7#4 then .ok (.addByte (fieldX op) (fieldKK op))
  else if fieldF op = 0x8#4 then decodeFamily8 op
  else if fieldF op = 0x9#4 then
    if fieldN op = 0x0#4 then .ok (.sneReg (fieldX op) (fieldY op))
    else .error (.noSuchInstruction op)
  else if fieldF op = 0xA#4 then .ok (.ldI (fieldNNN op))
  else if fieldF op = 0xB#4 then .ok (.jpV0 (fieldNNN op))
  else if fieldF op = 0xC#4 then .ok (.rnd (fieldX op) (fieldKK op))
  else if fieldF op = 0xD#4 then .ok (.drw (fieldX op) (fieldY op) (fieldN op))
  else if fieldF op = 0xE#4 then decodeFamilyE op
  else decodeFamilyF op

/-- Decoding from bytes: the instruction of the first two bytes and the bytes after them
(30_encoding.md R60: one length, 2 bytes). -/
def decodeBytes : List Byte → Except Reject (Instr × List Byte)
  | hi :: lo :: rest =>
    match decodeWord (wordOfBytes hi lo) with
    | .ok i => .ok (i, rest)
    | .error r => .error r
  | _ => .error .truncated

/-! ## Encoding (30_encoding.md R62, R65) -/

/-- Format NNN: F, then the 12-bit address. -/
def wordNNN (f : Nat) (nnn : Imm12) : Word := BitVec.ofNat 16 (f * 0x1000 + nnn.toNat)

/-- Formats XKK and X: F, X, then the low byte (the immediate or the fixed selector). -/
def wordXKK (f : Nat) (x : Reg) (kk : Byte) : Word :=
  BitVec.ofNat 16 (f * 0x1000 + x.val * 0x100 + kk.toNat)

/-- Formats XY and XYN: F, X, Y, then the low nibble (the fixed selector or the height). -/
def wordXYN (f : Nat) (x y : Reg) (n : Nibble) : Word :=
  BitVec.ofNat 16 (f * 0x1000 + x.val * 0x100 + y.val * 0x10 + n.toNat)

/-- The word of an instruction, by its row of 30_encoding.md R65. -/
def encode : Instr → Word
  | .sys nnn => wordNNN 0x0 nnn
  | .cls => 0x00E0#16
  | .ret => 0x00EE#16
  | .jp nnn => wordNNN 0x1 nnn
  | .call nnn => wordNNN 0x2 nnn
  | .seByte x kk => wordXKK 0x3 x kk
  | .sneByte x kk => wordXKK 0x4 x kk
  | .seReg x y => wordXYN 0x5 x y 0x0#4
  | .ldByte x kk => wordXKK 0x6 x kk
  | .addByte x kk => wordXKK 0x7 x kk
  | .ldReg x y => wordXYN 0x8 x y 0x0#4
  | .orReg x y => wordXYN 0x8 x y 0x1#4
  | .andReg x y => wordXYN 0x8 x y 0x2#4
  | .xorReg x y => wordXYN 0x8 x y 0x3#4
  | .addReg x y => wordXYN 0x8 x y 0x4#4
  | .subReg x y => wordXYN 0x8 x y 0x5#4
  | .shr x y => wordXYN 0x8 x y 0x6#4
  | .subn x y => wordXYN 0x8 x y 0x7#4
  | .shl x y => wordXYN 0x8 x y 0xE#4
  | .sneReg x y => wordXYN 0x9 x y 0x0#4
  | .ldI nnn => wordNNN 0xA nnn
  | .jpV0 nnn => wordNNN 0xB nnn
  | .rnd x kk => wordXKK 0xC x kk
  | .drw x y n => wordXYN 0xD x y n
  | .skp x => wordXKK 0xE x 0x9E#8
  | .sknp x => wordXKK 0xE x 0xA1#8
  | .ldVxDt x => wordXKK 0xF x 0x07#8
  | .ldVxK x => wordXKK 0xF x 0x0A#8
  | .ldDtVx x => wordXKK 0xF x 0x15#8
  | .ldStVx x => wordXKK 0xF x 0x18#8
  | .addI x => wordXKK 0xF x 0x1E#8
  | .ldF x => wordXKK 0xF x 0x29#8
  | .ldB x => wordXKK 0xF x 0x33#8
  | .storeRegs x => wordXKK 0xF x 0x55#8
  | .loadRegs x => wordXKK 0xF x 0x65#8

/-! ## The host's numbering of an opcode-table row -/

/-- What the decoder reads from the instruction whose bits are `w`, numbered as
spec/opcode_table.json numbers them, bits above `nbits` being 0. -/
def decodeTableWord (nbits w : Nat) : Option Instr :=
  match decodeBytes (wordBytes (BitVec.ofNat 16 (w % 2 ^ nbits))) with
  | .ok (i, _) => some i
  | .error _ => none

end Sys2Proof
end

