-- ==== Sys2Proof/Machine/Control.lean ====
section
/-! DEFINITION. The control-transfer instructions (41_control_flow.md). -/

namespace Sys2Proof.Machine

/-- SYS addr: always DecodeError(op) (R100). -/
def execSys (nnn : Imm12) (_s : State) : Host.Outcome State Fault Refusal :=
  raise (.decodeError (encode (.sys nnn)))

/-- RET: pop the return address into PC (R101). -/
def execRet (s : State) : Host.Outcome State Fault Refusal :=
  s.pop fun ret t => .next (t.setPc ret)

/-- JP addr (R102). -/
def execJp (nnn : Imm12) (s : State) : Host.Outcome State Fault Refusal :=
  .next (s.setPc (zextNNN nnn))

/-- CALL addr: push PC + 2, or ResourceExhausted(op) when the stack is full (R103). -/
def execCall (nnn : Imm12) (s : State) : Host.Outcome State Fault Refusal :=
  s.push (s.pc + 2) (.resourceExhausted (encode (.call nnn))) fun t => .next (t.setPc (zextNNN nnn))

/-- JP V0, addr: NNN + V0, not masked to 12 bits (R104). -/
def execJpV0 (nnn : Imm12) (s : State) : Host.Outcome State Fault Refusal :=
  .next (s.setPc (zextNNN nnn + zextByte (s.v 0)))

end Sys2Proof.Machine
end

