-- ==== Sys2Proof/Machine/Display.lean ====
section
/-! DEFINITION. The framebuffer write-and-collision engine: CLS and DRW (43_draw.md). -/

namespace Sys2Proof.Machine

/-- Pixel (x mod 64, y mod 32): every coordinate wraps, each on its own (43_draw.md R141 (c)). -/
def FrameBuffer.pixel (f : FrameBuffer) (x y : Nat) : Bool :=
  (f[y % 32]'(Nat.mod_lt _ (by decide))).getLsbD (x % 64)

/-- Pixel (x mod 64, y mod 32) toggled. -/
def FrameBuffer.toggle (f : FrameBuffer) (x y : Nat) : FrameBuffer :=
  f.set (y % 32) (f[y % 32]'(Nat.mod_lt _ (by decide)) ^^^ BitVec.twoPow 64 (x % 64))
    (Nat.mod_lt _ (by decide))

/-- What a draw in progress has done so far: the framebuffer, and whether a pixel that was 1 has been
toggled (43_draw.md R141). -/
structure Blit where
  /-- FB so far. -/
  fb : FrameBuffer
  /-- The collision flag so far, "only ever set to 1, never cleared mid-loop". -/
  collision : Bool
  deriving DecidableEq, Repr

/-- One sprite pixel at (x, y): if its bit is 1, note a collision and toggle (R141, the inner loop). -/
def blitPixel (acc : Blit) (x y : Nat) (bit : Bool) : Blit :=
  if bit then ⟨acc.fb.toggle x y, acc.collision || acc.fb.pixel x y⟩ else acc

/-- One sprite row, one byte, the most significant bit leftmost (R141, the loop over c). -/
def blitRow (acc : Blit) (x0 y : Nat) (b : Byte) : Blit :=
  [0, 1, 2, 3, 4, 5, 6, 7].foldl (fun acc c => blitPixel acc (x0 + c) y (b.getLsbD (7 - c))) acc

/-- The sprite rows, top to bottom (R141, the loop over r). -/
def blitRows (acc : Blit) (x0 y0 : Nat) : List Byte → Blit
  | [] => acc
  | b :: bs => blitRows (blitRow acc x0 y0 b) x0 (y0 + 1) bs

/-- FB[i] <- 0 for every i, and DRAW <- 1 by the parameter CLS_SETS_DRAW (R140). -/
def State.clearScreen (s : State) (setsDraw : Bool) : State :=
  (s.setFb (Vector.replicate 32 0)).setDraw (if setsDraw then true else s.draw)

/-- CLS (R140). -/
def execCls (s : State) : Host.Outcome State Fault Refusal :=
  .next (s.clearScreen Config.clsSetsDraw).advance

/-- The draw itself, on sprite bytes already read: FB, VF <- collision, DRAW <- 1 (R141). -/
def State.drawSprite (s : State) (x0 y0 : Nat) (rows : List Byte) : State :=
  let r := blitRows ⟨s.fb, false⟩ x0 y0 rows
  ((s.setFb r.fb).setV vf (flagByte r.collision)).setDraw true

/-- DRW Vx, Vy, nibble: with N ≥ 1 the range check of the last sprite byte; then the draw (R141).
With N = 0 no byte is read and nothing is checked. -/
def execDrw (x y : Reg) (n : Nibble) (s : State) : Host.Outcome State Fault Refusal :=
  if n.toNat = 0 then .next (s.drawSprite (s.v x).toNat (s.v y).toNat []).advance
  else
    requireInRange .memRead (s.addr (n.toNat - 1)) <|
      .next (s.drawSprite (s.v x).toNat (s.v y).toNat (s.mem.readBlock (s.addr 0) n.toNat)).advance

end Sys2Proof.Machine
end

