-- ==== Sys2Proof/Machine/Index.lean ====
section
/-! DEFINITION. The index-register and block-memory instructions (45_index_and_memory.md). -/

namespace Sys2Proof.Machine

/-- LD I, addr (R170). -/
def execLdI (nnn : Imm12) (s : State) : Host.Outcome State Fault Refusal :=
  .next (s.setI (zextNNN nnn)).advance

/-- ADD I, Vx: modulo 65536, no flag (R171). -/
def execAddI (x : Reg) (s : State) : Host.Outcome State Fault Refusal :=
  .next (s.setI (s.i + zextByte (s.v x))).advance

/-- LD F, Vx: I <- 5·d for a digit d up to 15 (R172). -/
def execLdF (x : Reg) (s : State) : Host.Outcome State Fault Refusal :=
  requireIndex .glyph (s.v x) fun d => .next (s.setI (glyphAddr d)).advance

/-- The three decimal digits of Vx stored at I, I+1, I+2 (R173); the parameter is LOW_MEM_WRITABLE. -/
def storeDigits (lowWritable : Bool) (x : Reg) (s : State) : Host.Outcome State Fault Refusal :=
  requireStorable lowWritable (s.addr 0) (s.addr 2) <|
    .next (s.setMem (s.mem.writeBlock (s.addr 0) (decimalDigits (s.v x)))).advance

/-- LD B, Vx (R173). -/
def execLdB (x : Reg) (s : State) : Host.Outcome State Fault Refusal :=
  storeDigits Config.lowMemWritable x s

/-- V0 to Vx stored at I to I+x; I is unchanged (R175); the parameter is LOW_MEM_WRITABLE. -/
def dumpRegs (lowWritable : Bool) (x : Reg) (s : State) : Host.Outcome State Fault Refusal :=
  requireStorable lowWritable (s.addr 0) (s.addr x.val) <|
    .next (s.setMem (s.mem.writeBlock (s.addr 0) (s.regBlock x))).advance

/-- LD [I], Vx (R175). -/
def execStoreRegs (x : Reg) (s : State) : Host.Outcome State Fault Refusal :=
  dumpRegs Config.lowMemWritable x s

/-- LD Vx, [I]: V0 to Vx loaded from I to I+x; I is unchanged (R176). -/
def execLoadRegs (x : Reg) (s : State) : Host.Outcome State Fault Refusal :=
  requireInRange .memRead (s.addr x.val) <|
    .next (s.setRegs
      (writeRegBlock s.regs 0 (s.mem.readBlock (s.addr 0) (x.val + 1)))).advance

end Sys2Proof.Machine
end

