-- ==== Sys2Proof/Machine/Keys.lean ====
section
/-! DEFINITION. The key instructions (44_keys_and_timers.md sections 1 and 2). -/

namespace Sys2Proof.Machine

/-- KEYS[k] <- b. -/
def State.setKey (s : State) (k : Key) (b : Bool) : State := s.setKeys (s.keys.set k.val b)

/-- KEYS[k] (10_state.md R19). -/
def State.key (s : State) (k : Key) : Bool := s.keys[k.val]

/-- SKP Vx: skip if the key is held; the key is consumed either way (R150). -/
def execSkp (x : Reg) (s : State) : Host.Outcome State Fault Refusal :=
  requireIndex .key (s.v x) fun k => .next ((s.setKey k false).skipIf (s.key k))

/-- SKNP Vx: skip if the key is not held; the key is consumed either way (R151). -/
def execSknp (x : Reg) (s : State) : Host.Outcome State Fault Refusal :=
  requireIndex .key (s.v x) fun k => .next ((s.setKey k false).skipIf (!s.key k))

/-- LD Vx, K: KW <- 1, KWREG <- x; Vx is written later, by the delivery of a key (R152). -/
def execLdVxK (x : Reg) (s : State) : Host.Outcome State Fault Refusal :=
  .next ((s.setKw true).setKwReg x).advance

end Sys2Proof.Machine
end

