-- ==== Sys2Proof/Machine/Skip.lean ====
section
/-! DEFINITION. Compare and skip (42_alu_and_skip.md section 1). -/

namespace Sys2Proof.Machine

/-- SE Vx, byte (R110). -/
def execSeByte (x : Reg) (kk : Byte) (s : State) : Host.Outcome State Fault Refusal :=
  .next (s.skipIf (s.v x == kk))

/-- SNE Vx, byte (R111). -/
def execSneByte (x : Reg) (kk : Byte) (s : State) : Host.Outcome State Fault Refusal :=
  .next (s.skipIf (s.v x != kk))

/-- SE Vx, Vy (R112). -/
def execSeReg (x y : Reg) (s : State) : Host.Outcome State Fault Refusal :=
  .next (s.skipIf (s.v x == s.v y))

/-- SNE Vx, Vy (R113). -/
def execSneReg (x y : Reg) (s : State) : Host.Outcome State Fault Refusal :=
  .next (s.skipIf (s.v x != s.v y))

end Sys2Proof.Machine
end

