-- ==== Sys2Proof/Machine/Timers.lean ====
section
/-! DEFINITION. The timer instructions (44_keys_and_timers.md section 3).
The timer phase of the same step follows them (`State.timerPhase`). -/

namespace Sys2Proof.Machine

/-- LD Vx, DT (R153). -/
def execLdVxDt (x : Reg) (s : State) : Host.Outcome State Fault Refusal :=
  .next (s.setV x s.dt).advance

/-- LD DT, Vx (R154). -/
def execLdDtVx (x : Reg) (s : State) : Host.Outcome State Fault Refusal :=
  .next (s.setDt (s.v x)).advance

/-- LD ST, Vx (R155). -/
def execLdStVx (x : Reg) (s : State) : Host.Outcome State Fault Refusal :=
  .next (s.setSt (s.v x)).advance

end Sys2Proof.Machine
end

