-- ==== Sys2Proof/Machine/Fetch.lean ====
section
/-! DEFINITION. Phases 2 and 3 of a step: fetch and decode (40_step_and_dispatch.md R80, R82, R83). -/

namespace Sys2Proof.Machine

/-- The word at PC: `MEM[PC] ++ MEM[PC+1]`, or OutOfRangeError(FETCH, PC) when PC > 0xFFE (R82,
20_memory.md R42, R45). -/
def State.fetch (s : State) : Except Fault Word :=
  if 0xFFE < s.pc.toNat then .error (.outOfRange .fetch s.pc.toNat)
  else .ok (wordOfBytes (s.mem.read s.pc.toNat) (s.mem.read (s.pc.toNat + 1)))

/-- The instruction at PC, or the error of the fetch, or DecodeError(op) (R82, R83). -/
def State.fetchDecode (s : State) : Except Fault Instr :=
  match s.fetch with
  | .error f => .error f
  | .ok op =>
    match decodeWord op with
    | .ok i => .ok i
    | .error _ => .error (.decodeError op)

/-- The state with the two bytes of a word placed where the next step fetches, and a step that will
fetch there: not blocked, and PC a legal fetch address (0x200 where it was none). -/
def State.placeWord (s : State) (op : Word) : State :=
  let at' := if 0xFFE < s.pc.toNat then BitVec.ofNat 16 Config.progBase else s.pc
  ((s.setKw false).setPc at').setMem (s.mem.writeBlock at'.toNat (wordBytes op))

end Sys2Proof.Machine
end

