-- ==== Sys2Proof/Machine/Step.lean ====
section
/-! DEFINITION. The `step` operation (40_step_and_dispatch.md R80). -/

namespace Sys2Proof.Machine

/-- One step: a blocked step changes nothing (R81); else fetch and decode (R82, R83), DRAW <- 0
(R85), the instruction or its error (R84, R86), the timer phase (R90).
Clearing DRAW before the instruction's error conditions are tested cannot be seen: no condition reads
DRAW, and an error leaves the state before the step. -/
def step (s : State) : Host.Outcome State Fault Refusal :=
  if s.blocked then .next s
  else
    match s.fetchDecode with
    | .error f => raise f
    | .ok i => finishStep (exec i s.clearDraw)

/-- `s` with the instruction whose bits are `w` (numbered as spec/opcode_table.json numbers them) where
the next step fetches. -/
def State.withFetchWord (s : State) (nbits w : Nat) : State :=
  s.placeWord (BitVec.ofNat 16 (w % 2 ^ nbits))

end Sys2Proof.Machine
end

