-- ==== Sys2Proof/Machine/HostOps.lean ====
section
/-! DEFINITION. The host's four operations, their outcomes and reports, and the outputs it reads
(00_scope.md R7, R8; 10_state.md R25; 60_exceptions.md R190, R192, R197). -/

namespace Sys2Proof.Machine

/-! ## The operations beside `step` -/

/-- `reset` (70_reset_and_hazards.md R220).
The two fields that carry the `rnd` input belong to the host and go on (log 1). -/
def hostReset (s : State) : State :=
  (State.reset.setRndInputs s.rndInputs).setRndCount s.rndCount

/-- `load(image)` (20_memory.md R48). -/
def loadImage (image : List Byte) (s : State) : Host.Outcome State Fault Refusal :=
  if Config.maxImage < image.length then raise (.outOfRange .load image.length)
  else .next (s.setMem (s.mem.writeBlock Config.progBase image))

/-- `deliverKey(key)` (44_keys_and_timers.md R156). -/
def deliverKey (key : Key) (s : State) : State :=
  if s.kw then ((s.setKey key true).setV s.kwReg (BitVec.ofNat 8 key.val)).setKw false
  else s.setKey key true

/-! ## Any operation, with its outcome -/

/-- What the host can do to the CORE (00_scope.md R8, 10_state.md R25). -/
inductive Operation where
  /-- `reset`. -/
  | reset
  /-- `load(image)`. -/
  | load (image : List Byte)
  /-- `step`, with the byte on its `rnd` input. -/
  | step (rnd : Byte)
  /-- `deliverKey(key)`. -/
  | deliverKey (key : Key)
  deriving DecidableEq, Repr

/-- The outcome of an operation (00_scope.md R7). -/
inductive Result where
  /-- OK. -/
  | ok
  /-- BLOCKED: a step while KW = 1. -/
  | blocked
  /-- An error, after which the state is the one before the operation (60_exceptions.md R196). -/
  | error (f : Fault)
  /-- The model's own refusal; no operation of this hardware has this outcome. -/
  | refused (r : Refusal)
  deriving DecidableEq, Repr

/-- The outcome and the state an operation leaves, from how its meaning ended. -/
def settle (s : State) : Host.Outcome State Fault Refusal → Result × State
  | .next t => (.ok, t)
  | .fault f => (.error f, s)
  | .refused r => (.refused r, s)

/-- `step(rnd)`: the step with the host's byte on the `rnd` input of this step; the bytes listed for
later steps are as before (40_step_and_dispatch.md R80). -/
def performStep (r : Byte) (s : State) : Result × State :=
  if s.blocked then (.blocked, s)
  else
    match step (s.setRndInputs [r]) with
    | .next t => (.ok, t.setRndInputs s.rndInputs)
    | .fault f => (.error f, s)
    | .refused q => (.refused q, s)

/-- One operation of the host as one atomic transition (00_scope.md R8). -/
def perform : Operation → State → Result × State
  | .reset, s => (.ok, hostReset s)
  | .load image, s => settle s (loadImage image s)
  | .step r, s => performStep r s
  | .deliverKey key, s => (.ok, deliverKey key s)

/-- The state after a sequence of operations, in the host's order. -/
def runScript : List Operation → State → State
  | [], s => s
  | o :: os, s => runScript os (perform o s).2

/-! ## Outputs (10_state.md R25) -/

/-- What the host may read between operations. -/
structure Outputs where
  /-- FB as 2048 pixels, FB[y·64 + x] (10_state.md R17). -/
  fb : List Bool
  /-- DRAW (R21). -/
  drawFlag : Bool
  /-- ST ≠ 0 (R22). -/
  soundOn : Bool
  /-- SND_END (R22). -/
  soundEnd : Bool
  /-- KW (R20). -/
  keyWait : Bool
  deriving DecidableEq, Repr

/-- The pixels in the order of their index, row by row (10_state.md R17). -/
def FrameBuffer.pixels (f : FrameBuffer) : List Bool :=
  f.toList.flatMap fun row => (List.range 64).map row.getLsbD

/-- The outputs are functions of the state (10_state.md R25). -/
def State.outputs (s : State) : Outputs where
  fb := s.fb.pixels
  drawFlag := s.draw
  soundOn := s.st != 0
  soundEnd := s.sndEnd
  keyWait := s.kw

/-! ## The report of an outcome (60_exceptions.md R190, R192, R197) -/

/-- The 3-bit number of an OutOfRangeError kind (R192). -/
def RangeKind.number : RangeKind → BitVec 3
  | .fetch => 0
  | .memRead => 1
  | .memWrite => 2
  | .memProtect => 3
  | .stack => 4
  | .key => 5
  | .glyph => 6
  | .load => 7

/-- The 2-bit code of an error class (R190). -/
def Fault.code : Fault → BitVec 2
  | .decodeError _ => 1
  | .outOfRange _ _ => 2
  | .resourceExhausted _ => 3

/-- The 2-bit code of an outcome: 0 for OK and BLOCKED (R190, R197). -/
def Result.code : Result → BitVec 2
  | .ok | .blocked | .refused _ => 0
  | .error f => f.code

/-- The BLOCKED bit of an outcome (R197). -/
def Result.blockedBit : Result → Bool
  | .blocked => true
  | .ok | .error _ | .refused _ => false

/-- The information word of an outcome (R197). -/
inductive Info where
  /-- Codes 1 and 3: the 16-bit opcode. -/
  | opcode (op : Word)
  /-- Code 2: the 3-bit kind number and the value, a natural number. -/
  | range (kind : BitVec 3) (value : Nat)
  deriving DecidableEq, Repr

/-- The information an error carries (R190, R192, R197). -/
def Fault.info : Fault → Info
  | .decodeError op => .opcode op
  | .outOfRange kind value => .range kind.number value
  | .resourceExhausted op => .opcode op

/-- The information of an outcome: none but for an error (R197). -/
def Result.info : Result → Option Info
  | .ok | .blocked | .refused _ => none
  | .error f => some f.info

end Sys2Proof.Machine
end

