-- ==== Sys2Proof/Safety.lean ====
section
/-! DEFINITION. The terms claims are made in: what an operation leaves unchanged, when an instruction
raises which error, the invariant of the machine, and the states that differ only where nothing looks. -/

namespace Sys2Proof.Machine

/-! ## Frames -/

/-- The pieces of state of 10_state.md section 1, one name each; `rnd` is the model's own pair of
fields for the `rnd` input (log 1). -/
inductive Part where
  /-- V[r]. -/
  | v (r : Reg)
  /-- MEM, every byte. -/
  | mem
  /-- I. -/
  | i
  /-- PC. -/
  | pc
  /-- STACK[n]. -/
  | stackEntry (n : Fin 16)
  /-- SP. -/
  | sp
  /-- FB, every pixel. -/
  | pixels
  /-- DT. -/
  | dt
  /-- ST. -/
  | st
  /-- KEYS[k]. -/
  | key (k : Key)
  /-- KW. -/
  | kw
  /-- KWREG. -/
  | kwReg
  /-- DRAW. -/
  | draw
  /-- SND_END. -/
  | sndEnd
  /-- The `rnd` input's fields. -/
  | rnd
  deriving DecidableEq, Repr

/-- Every piece of state but the named ones is in `t` what it is in `s`.
Memory is compared byte by byte, as a program reads it. -/
structure UnchangedBut (touched : List Part) (s t : State) : Prop where
  v : ∀ r, Part.v r ∉ touched → t.v r = s.v r
  mem : Part.mem ∉ touched → ∀ a, t.mem.read a = s.mem.read a
  i : Part.i ∉ touched → t.i = s.i
  pc : Part.pc ∉ touched → t.pc = s.pc
  stackEntry : ∀ n : Fin 16, Part.stackEntry n ∉ touched → t.stack[n.val] = s.stack[n.val]
  sp : Part.sp ∉ touched → t.sp = s.sp
  pixels : Part.pixels ∉ touched → ∀ x y, t.fb.pixel x y = s.fb.pixel x y
  dt : Part.dt ∉ touched → t.dt = s.dt
  st : Part.st ∉ touched → t.st = s.st
  key : ∀ k, Part.key k ∉ touched → t.key k = s.key k
  kw : Part.kw ∉ touched → t.kw = s.kw
  kwReg : Part.kwReg ∉ touched → t.kwReg = s.kwReg
  draw : Part.draw ∉ touched → t.draw = s.draw
  sndEnd : Part.sndEnd ∉ touched → t.sndEnd = s.sndEnd
  rnd : Part.rnd ∉ touched → t.rndInputs = s.rndInputs ∧ t.rndCount = s.rndCount

/-! ## Errors (the "Exceptions" line of each instruction's rule; 60_exceptions.md R192, R193) -/

/-- Instruction `i` in state `s` meets the condition of error `f`. -/
def Raises (i : Instr) (s : State) (f : Fault) : Prop :=
  match i with
  | .sys nnn => f = .decodeError (nnn.setWidth 16)
  | .ret => s.sp.val = 0 ∧ f = .outOfRange .stack 0
  | .call nnn => s.sp.val = 16 ∧ f = .resourceExhausted (BitVec.ofNat 16 (0x2000 + nnn.toNat))
  | .drw _ _ n => 1 ≤ n.toNat ∧ 0xFFF < s.i.toNat + n.toNat - 1 ∧
      f = .outOfRange .memRead (s.i.toNat + n.toNat - 1)
  | .skp x | .sknp x => 15 < (s.v x).toNat ∧ f = .outOfRange .key (s.v x).toNat
  | .ldF x => 15 < (s.v x).toNat ∧ f = .outOfRange .glyph (s.v x).toNat
  | .ldB _ => (0xFFF < s.i.toNat + 2 ∧ f = .outOfRange .memWrite (s.i.toNat + 2)) ∨
      (s.i.toNat < 0x200 ∧ f = .outOfRange .memProtect s.i.toNat)
  | .storeRegs x => (0xFFF < s.i.toNat + x.val ∧ f = .outOfRange .memWrite (s.i.toNat + x.val)) ∨
      (s.i.toNat < 0x200 ∧ f = .outOfRange .memProtect s.i.toNat)
  | .loadRegs x => 0xFFF < s.i.toNat + x.val ∧ f = .outOfRange .memRead (s.i.toNat + x.val)
  | .cls | .jp _ | .seByte _ _ | .sneByte _ _ | .seReg _ _ | .ldByte _ _ | .addByte _ _
  | .ldReg _ _ | .orReg _ _ | .andReg _ _ | .xorReg _ _ | .addReg _ _ | .subReg _ _ | .shr _ _
  | .subn _ _ | .shl _ _ | .sneReg _ _ | .ldI _ | .jpV0 _ | .rnd _ _ | .ldVxDt _ | .ldVxK _
  | .ldDtVx _ | .ldStVx _ | .addI _ => False

/-! ## The invariant -/

/-- What holds of every state the host can bring the machine to (the defaults of 00_scope.md R4). -/
structure State.Inv (s : State) : Prop where
  /-- Memory is in canonical form (the model's own). -/
  memWf : s.mem.wf
  /-- The font and the reserved bytes are "never mutated" (10_state.md R14, 20_memory.md R46). -/
  lowIntact : ∀ a < 0x200, s.mem.read a = Memory.resetByte a
  /-- "at most 0x10FE is reachable" (10_state.md R15). -/
  pcBound : s.pc.toNat ≤ 0x10FE
  /-- A live entry is the address after a CALL that was fetched, so at most 0x1000 (10_state.md R16,
  40_step_and_dispatch.md R82). -/
  liveReturns : ∀ n : Fin 16, n.val < s.sp.val → s.stack[n.val].toNat ≤ 0x1000
  /-- Sound has ended only where the sound timer is 0 (10_state.md R22, 40_step_and_dispatch.md R90). -/
  soundEnded : s.sndEnd = true → s.st = 0

/-! ## States that differ only where nothing looks -/

/-- `t` is `s` but for stack entries at SP and above, "never read before being overwritten"
(10_state.md R16), and for KWREG while KW = 0, "meaningful only while KW = 1" (R20). -/
structure SameLive (s t : State) : Prop where
  mem : t.mem = s.mem
  regs : t.regs = s.regs
  i : t.i = s.i
  pc : t.pc = s.pc
  sp : t.sp = s.sp
  live : ∀ n : Fin 16, n.val < s.sp.val → t.stack[n.val] = s.stack[n.val]
  fb : t.fb = s.fb
  dt : t.dt = s.dt
  st : t.st = s.st
  keys : t.keys = s.keys
  kw : t.kw = s.kw
  kwReg : s.kw = true → t.kwReg = s.kwReg
  draw : t.draw = s.draw
  sndEnd : t.sndEnd = s.sndEnd
  rndInputs : t.rndInputs = s.rndInputs
  rndCount : t.rndCount = s.rndCount

end Sys2Proof.Machine
end

