-- ==== Sys2Proof/Certificates/Slice0/Obligations.lean ====
section
/-! DEFINITION. What is claimed of the model, each claim from the numbered rules of spec/.
`UnchangedBut l s t` says that every piece of state not named in `l` is in `t` what it is in `s`. -/

namespace Sys2Proof.Claims

/-- The 80 bytes of the font table of 10_state.md R14, address by address. -/
def fontTable : List Byte :=
  [0xF0, 0x90, 0x90, 0x90, 0xF0, 0x20, 0x60, 0x20, 0x20, 0x70] ++
  [0xF0, 0x10, 0xF0, 0x80, 0xF0, 0xF0, 0x10, 0xF0, 0x10, 0xF0] ++
  [0x90, 0x90, 0xF0, 0x10, 0x10, 0xF0, 0x80, 0xF0, 0x10, 0xF0] ++
  [0xF0, 0x80, 0xF0, 0x90, 0xF0, 0xF0, 0x10, 0x20, 0x40, 0x40] ++
  [0xF0, 0x90, 0xF0, 0x90, 0xF0, 0xF0, 0x90, 0xF0, 0x10, 0xF0] ++
  [0xF0, 0x90, 0xF0, 0x90, 0x90, 0xE0, 0x90, 0xE0, 0x90, 0xE0] ++
  [0xF0, 0x80, 0x80, 0x80, 0xF0, 0xE0, 0x90, 0x90, 0x90, 0xE0] ++
  [0xF0, 0x80, 0xF0, 0x80, 0xF0, 0xF0, 0x80, 0xF0, 0x80, 0x80]

/-- The table of 70_reset_and_hazards.md R220. -/
def ResetTable (t : Machine.State) : Prop :=
  t.pc = 0x0200 ∧ (∀ a < 80, t.mem.read a = fontTable.getD a 0) ∧
  (∀ a, 0x050 ≤ a → a ≤ 0xFFF → t.mem.read a = 0) ∧ (∀ r, t.v r = 0) ∧ t.i = 0 ∧
  (∀ n : Fin 16, t.stack[n.val] = 0) ∧ t.sp = 0 ∧ (∀ x y, t.fb.pixel x y = false) ∧
  t.dt = 0 ∧ t.st = 0 ∧ (∀ k, t.key k = false) ∧ t.kw = false ∧ t.kwReg = 0 ∧
  t.draw = false ∧ t.sndEnd = false ∧ t.outputs.soundOn = false ∧ t.outputs.keyWait = false

/-- Column mask of 30_encoding.md R65. -/
def rowMask : Instr → Word
  | .cls | .ret => 0xFFFF
  | .sys _ | .jp _ | .call _ | .seByte _ _ | .sneByte _ _ | .ldByte _ _ | .addByte _ _ | .ldI _
  | .jpV0 _ | .rnd _ _ | .drw _ _ _ => 0xF000
  | .seReg _ _ | .ldReg _ _ | .orReg _ _ | .andReg _ _ | .xorReg _ _ | .addReg _ _ | .subReg _ _
  | .shr _ _ | .subn _ _ | .shl _ _ | .sneReg _ _ => 0xF00F
  | .skp _ | .sknp _ | .ldVxDt _ | .ldVxK _ | .ldDtVx _ | .ldStVx _ | .addI _ | .ldF _ | .ldB _
  | .storeRegs _ | .loadRegs _ => 0xF0FF

/-- Column match of 30_encoding.md R65. -/
def rowMatch : Instr → Word
  | .sys _ => 0x0000
  | .cls => 0x00E0
  | .ret => 0x00EE
  | .jp _ => 0x1000
  | .call _ => 0x2000
  | .seByte _ _ => 0x3000
  | .sneByte _ _ => 0x4000
  | .seReg _ _ => 0x5000
  | .ldByte _ _ => 0x6000
  | .addByte _ _ => 0x7000
  | .ldReg _ _ => 0x8000
  | .orReg _ _ => 0x8001
  | .andReg _ _ => 0x8002
  | .xorReg _ _ => 0x8003
  | .addReg _ _ => 0x8004
  | .subReg _ _ => 0x8005
  | .shr _ _ => 0x8006
  | .subn _ _ => 0x8007
  | .shl _ _ => 0x800E
  | .sneReg _ _ => 0x9000
  | .ldI _ => 0xA000
  | .jpV0 _ => 0xB000
  | .rnd _ _ => 0xC000
  | .drw _ _ _ => 0xD000
  | .skp _ => 0xE09E
  | .sknp _ => 0xE0A1
  | .ldVxDt _ => 0xF007
  | .ldVxK _ => 0xF00A
  | .ldDtVx _ => 0xF015
  | .ldStVx _ => 0xF018
  | .addI _ => 0xF01E
  | .ldF _ => 0xF029
  | .ldB _ => 0xF033
  | .storeRegs _ => 0xF055
  | .loadRegs _ => 0xF065

/-- The word at PC of a step that is not blocked. -/
def Fetches (s : Machine.State) (op : Word) : Prop :=
  s.kw = false ∧ s.pc.toNat ≤ 0xFFE ∧
    op = s.mem.read s.pc.toNat ++ s.mem.read (s.pc.toNat + 1)

/-- A sprite bit of DRW Vx, Vy, n in state s is set and maps onto pixel (px, py) (43_draw.md R141). -/
def SpriteBitAt (x y : Reg) (n : Nibble) (s : Machine.State) (px py : Nat) : Prop :=
  ∃ r < n.toNat, ∃ c < 8, (s.mem.read (s.i.toNat + r)).getLsbD (7 - c) = true ∧
    px = ((s.v x).toNat + c) % 64 ∧ py = ((s.v y).toNat + r) % 32

/-- The step or load of a script that never resets and delivers no key. -/
def StepOrLoad : Machine.Operation → Prop
  | .step _ | .load _ => True
  | .reset | .deliverKey _ => False

/-- PC of the sequential class of 40_step_and_dispatch.md R87. -/
def AdvancesByTwo : Instr → Prop
  | .cls | .ldByte _ _ | .addByte _ _ | .ldReg _ _ | .orReg _ _ | .andReg _ _ | .xorReg _ _
  | .addReg _ _ | .subReg _ _ | .shr _ _ | .subn _ _ | .shl _ _ | .ldI _ | .rnd _ _ | .drw _ _ _
  | .ldVxDt _ | .ldVxK _ | .ldDtVx _ | .ldStVx _ | .addI _ | .ldF _ | .ldB _ | .storeRegs _
  | .loadRegs _ => True
  | .sys _ | .ret | .jp _ | .call _ | .seByte _ _ | .sneByte _ _ | .seReg _ _ | .sneReg _ _
  | .jpV0 _ | .skp _ | .sknp _ => False

/-- The condition of the skip class of 40_step_and_dispatch.md R87; none for the other classes. -/
def skipCondition (s : Machine.State) : Instr → Option Prop
  | .seByte x kk => some (s.v x = kk)
  | .sneByte x kk => some (s.v x ≠ kk)
  | .seReg x y => some (s.v x = s.v y)
  | .sneReg x y => some (s.v x ≠ s.v y)
  | .skp x => some (∃ k : Key, k.val = (s.v x).toNat ∧ s.key k = true)
  | .sknp x => some (∃ k : Key, k.val = (s.v x).toNat ∧ s.key k = false)
  | .sys _ | .cls | .ret | .jp _ | .call _ | .ldByte _ _ | .addByte _ _ | .ldReg _ _ | .orReg _ _
  | .andReg _ _ | .xorReg _ _ | .addReg _ _ | .subReg _ _ | .shr _ _ | .subn _ _ | .shl _ _
  | .ldI _ | .jpV0 _ | .rnd _ _ | .drw _ _ _ | .ldVxDt _ | .ldVxK _ | .ldDtVx _ | .ldStVx _
  | .addI _ | .ldF _ | .ldB _ | .storeRegs _ | .loadRegs _ => none

/-- The instructions that write VF as a side effect (10_state.md R11). -/
def WritesFlag : Instr → Prop
  | .addReg _ _ | .subReg _ _ | .shr _ _ | .subn _ _ | .shl _ _ | .drw _ _ _ => True
  | .sys _ | .cls | .ret | .jp _ | .call _ | .seByte _ _ | .sneByte _ _ | .seReg _ _ | .ldByte _ _
  | .addByte _ _ | .ldReg _ _ | .orReg _ _ | .andReg _ _ | .xorReg _ _ | .sneReg _ _ | .ldI _
  | .jpV0 _ | .rnd _ _ | .skp _ | .sknp _ | .ldVxDt _ | .ldVxK _ | .ldDtVx _ | .ldStVx _ | .addI _
  | .ldF _ | .ldB _ | .storeRegs _ | .loadRegs _ => False

/-- VF is the destination an instruction's X names (10_state.md R11). -/
def NamesVF : Instr → Prop
  | .ldByte x _ | .addByte x _ | .ldReg x _ | .orReg x _ | .andReg x _ | .xorReg x _ | .rnd x _
  | .ldVxDt x | .loadRegs x => x = 15
  | .sys _ | .cls | .ret | .jp _ | .call _ | .seByte _ _ | .sneByte _ _ | .seReg _ _ | .addReg _ _
  | .subReg _ _ | .shr _ _ | .subn _ _ | .shl _ _ | .sneReg _ _ | .ldI _ | .jpV0 _ | .drw _ _ _
  | .skp _ | .sknp _ | .ldVxK _ | .ldDtVx _ | .ldStVx _ | .addI _ | .ldF _ | .ldB _
  | .storeRegs _ => False

end Sys2Proof.Claims

open Sys2Proof Sys2Proof.Machine Sys2Proof.Claims

/-! ## Encoding (30_encoding.md) -/

/-- The patterns of R65 row by row, written as numbers: each word decodes to its row's instruction with
the operands its fields hold. -/
def Obligations.OpcodePatternsDecodeToTheirRows : Prop :=
  ∀ (x y : Fin 16) (n : Nibble) (kk : Byte) (nnn : Imm12),
    let NNN := nnn.toNat
    let XKK := x.val * 0x100 + kk.toNat
    let XY := x.val * 0x100 + y.val * 0x10
    let X := x.val * 0x100
    let d := fun w : Nat => decodeWord (BitVec.ofNat 16 w)
    (NNN ≠ 0x0E0 → NNN ≠ 0x0EE → d NNN = .ok (.sys nnn)) ∧
    d 0x00E0 = .ok .cls ∧ d 0x00EE = .ok .ret ∧
    d (0x1000 + NNN) = .ok (.jp nnn) ∧ d (0x2000 + NNN) = .ok (.call nnn) ∧
    d (0x3000 + XKK) = .ok (.seByte x kk) ∧ d (0x4000 + XKK) = .ok (.sneByte x kk) ∧
    d (0x5000 + XY) = .ok (.seReg x y) ∧ d (0x6000 + XKK) = .ok (.ldByte x kk) ∧
    d (0x7000 + XKK) = .ok (.addByte x kk) ∧ d (0x8000 + XY) = .ok (.ldReg x y) ∧
    d (0x8001 + XY) = .ok (.orReg x y) ∧ d (0x8002 + XY) = .ok (.andReg x y) ∧
    d (0x8003 + XY) = .ok (.xorReg x y) ∧ d (0x8004 + XY) = .ok (.addReg x y) ∧
    d (0x8005 + XY) = .ok (.subReg x y) ∧ d (0x8006 + XY) = .ok (.shr x y) ∧
    d (0x8007 + XY) = .ok (.subn x y) ∧ d (0x800E + XY) = .ok (.shl x y) ∧
    d (0x9000 + XY) = .ok (.sneReg x y) ∧ d (0xA000 + NNN) = .ok (.ldI nnn) ∧
    d (0xB000 + NNN) = .ok (.jpV0 nnn) ∧ d (0xC000 + XKK) = .ok (.rnd x kk) ∧
    d (0xD000 + XY + n.toNat) = .ok (.drw x y n) ∧ d (0xE09E + X) = .ok (.skp x) ∧
    d (0xE0A1 + X) = .ok (.sknp x) ∧ d (0xF007 + X) = .ok (.ldVxDt x) ∧
    d (0xF00A + X) = .ok (.ldVxK x) ∧ d (0xF015 + X) = .ok (.ldDtVx x) ∧
    d (0xF018 + X) = .ok (.ldStVx x) ∧ d (0xF01E + X) = .ok (.addI x) ∧
    d (0xF029 + X) = .ok (.ldF x) ∧ d (0xF033 + X) = .ok (.ldB x) ∧
    d (0xF055 + X) = .ok (.storeRegs x) ∧ d (0xF065 + X) = .ok (.loadRegs x)

/-- R65, columns match and mask: a word decodes to a row's instruction exactly when `op AND mask =
match`, the two words of rows 2 and 3 being tested before row 1. -/
def Obligations.DecoderAgreesWithMaskAndMatch : Prop :=
  ∀ (op : Word) (row : Instr),
    (∃ i, decodeWord op = .ok i ∧ rowMask i = rowMask row ∧ rowMatch i = rowMatch row) ↔
      op &&& rowMask row = rowMatch row ∧
        (rowMatch row = 0x0000 → op ≠ 0x00E0 ∧ op ≠ 0x00EE)

/-- Every well-formed instruction comes back from its word with every operand. -/
def Obligations.DecodeOfEncodeIsTheInstruction : Prop :=
  ∀ i : Instr, i.wellFormed = true → decodeWord (encode i) = .ok i

/-- Every word that decodes is the word of the instruction it decodes to, and that instruction is
well-formed: no bit of a word is dropped, no two words are one instruction. -/
def Obligations.EncodeOfDecodeIsTheWord : Prop :=
  ∀ (op : Word) (i : Instr), decodeWord op = .ok i → encode i = op ∧ i.wellFormed = true

/-- R68: a word that matches none of rows 2 to 35 raises DecodeError(op) at the step that fetches it,
with no state change. -/
def Obligations.UnmatchedWordsRaiseDecodeError : Prop :=
  ∀ (op : Word) (s : State) (r : Byte), Fetches s op →
    (∀ row : Instr, rowMatch row ≠ 0x0000 → op &&& rowMask row ≠ rowMatch row) →
    step s = .fault (.decodeError op) ∧ perform (.step r) s = (.error (.decodeError op), s)

/-- A few words of 95_test_vectors.md, one or more of each family, decode to the instruction the vector
names. -/
def Obligations.VectorWordsDecode : Prop :=
  decodeWord 0x00E0 = .ok .cls ∧ decodeWord 0x00EE = .ok .ret ∧ decodeWord 0x0123 = .ok (.sys 0x123) ∧
  decodeWord 0x1ABC = .ok (.jp 0xABC) ∧ decodeWord 0x2400 = .ok (.call 0x400) ∧
  decodeWord 0x332A = .ok (.seByte 3 0x2A) ∧ decodeWord 0x4300 = .ok (.sneByte 3 0x00) ∧
  decodeWord 0x5120 = .ok (.seReg 1 2) ∧ decodeWord 0x6A7F = .ok (.ldByte 0xA 0x7F) ∧
  decodeWord 0x7005 = .ok (.addByte 0 0x05) ∧ decodeWord 0x8014 = .ok (.addReg 0 1) ∧
  decodeWord 0x845E = .ok (.shl 4 5) ∧ decodeWord 0x9120 = .ok (.sneReg 1 2) ∧
  decodeWord 0xA300 = .ok (.ldI 0x300) ∧ decodeWord 0xBFFF = .ok (.jpV0 0xFFF) ∧
  decodeWord 0xC30F = .ok (.rnd 3 0x0F) ∧ decodeWord 0xD125 = .ok (.drw 1 2 5) ∧
  decodeWord 0xE19E = .ok (.skp 1) ∧ decodeWord 0xE1A1 = .ok (.sknp 1) ∧
  decodeWord 0xF10A = .ok (.ldVxK 1) ∧ decodeWord 0xF265 = .ok (.loadRegs 2) ∧
  decodeWord 0x5121 = .error (.noSuchInstruction 0x5121) ∧
  decodeWord 0x812F = .error (.noSuchInstruction 0x812F) ∧
  decodeWord 0xF166 = .error (.noSuchInstruction 0xF166)

/-! ## The step (40_step_and_dispatch.md) -/

/-- R80, R82, R83: what a step is, phase by phase; where the word at PC decodes to an instruction, the
step is that instruction's `exec` after DRAW <- 0, and then the timer phase. -/
def Obligations.StepRunsTheDecodedInstruction : Prop :=
  ∀ s : State,
    (s.kw = true → step s = .next s) ∧
    (s.kw = false → 0xFFE < s.pc.toNat → step s = .fault (.outOfRange .fetch s.pc.toNat)) ∧
    ∀ op, Fetches s op →
      (∀ e, decodeWord op = .error e → step s = .fault (.decodeError op)) ∧
      ∀ i, decodeWord op = .ok i →
        (∀ f, exec i s.clearDraw = .fault f → step s = .fault f) ∧
        ∀ u, exec i s.clearDraw = .next u → step s = .next u.timerPhase

/-- R90: after the instruction DT and ST fall by one where they are not 0, SND_END says whether ST was
exactly 1, and nothing else changes; a blocked and a faulting step leave all three. -/
def Obligations.TimerPhaseCountsDown : Prop :=
  ∀ s : State,
    (∀ (u : State) (op : Word) (i : Instr), Fetches s op → decodeWord op = .ok i →
      exec i s.clearDraw = .next u →
      ∃ t, step s = .next t ∧ t.dt.toNat = u.dt.toNat - 1 ∧ t.st.toNat = u.st.toNat - 1 ∧
        (t.sndEnd = true ↔ u.st.toNat = 1) ∧ UnchangedBut [.dt, .st, .sndEnd] u t) ∧
    ∀ (r : Byte) (q : Result) (t : State), perform (.step r) s = (q, t) → q ≠ .ok →
      t.dt = s.dt ∧ t.st = s.st ∧ t.sndEnd = s.sndEnd

/-- R81: a blocked step changes no state, has outcome BLOCKED, any number of them have the effect of
none, and only deliverKey or reset ends the wait. -/
def Obligations.BlockedStepsChangeNothing : Prop :=
  ∀ s : State, s.kw = true →
    step s = .next s ∧ (∀ r, perform (.step r) s = (.blocked, s)) ∧
    (∀ rs : List Byte, runScript (rs.map .step) s = s) ∧
    ∀ o : Operation, (perform o s).2.kw = false → o = .reset ∨ ∃ k, o = .deliverKey k

/-- R82: the word fetched is MEM[PC] in bits 15:8 and MEM[PC+1] in bits 7:0; PC > 0xFFE raises
OutOfRangeError(FETCH, PC); any other PC is a fetch address, odd ones too. -/
def Obligations.FetchIsBigEndianAndRangeChecked : Prop :=
  ∀ s : State,
    (0xFFE < s.pc.toNat → s.fetch = .error (.outOfRange .fetch s.pc.toNat)) ∧
    (s.kw = false → 0xFFE < s.pc.toNat → step s = .fault (.outOfRange .fetch s.pc.toNat)) ∧
    (s.pc.toNat ≤ 0xFFE → ∃ op, s.fetch = .ok op ∧
      op.extractLsb' 8 8 = s.mem.read s.pc.toNat ∧
      op.extractLsb' 0 8 = s.mem.read (s.pc.toNat + 1))

/-- R84, R86: an instruction either meets exactly the error its rule lists and stops with it, or
completes; it is never refused. -/
def Obligations.InstructionsFaultExactlyWhereTheirRuleSays : Prop :=
  ∀ (i : Instr) (s : State),
    (∀ f, exec i s = .fault f ↔ Raises i s f) ∧ ((∀ f, ¬ Raises i s f) → ∃ t, exec i s = .next t) ∧
      ∀ q, exec i s ≠ .refused q

/-- R85, R21: after a step that was not blocked DRAW is 1 exactly when that step executed CLS or DRW. -/
def Obligations.DrawFlagIsSetExactlyByClsAndDrw : Prop :=
  ∀ (s t : State) (op : Word) (i : Instr), Fetches s op → decodeWord op = .ok i → step s = .next t →
    (t.draw = true ↔ i = .cls ∨ ∃ x y n, i = .drw x y n)

/-- R87: the sequential instructions add 2 to PC, the skips add 4 or 2 as their condition holds or not,
modulo 65536. -/
def Obligations.ProgramCounterClasses : Prop :=
  ∀ (i : Instr) (s t : State), exec i s = .next t →
    (AdvancesByTwo i → t.pc.toNat = (s.pc.toNat + 2) % 65536) ∧
    ∀ c, skipCondition s i = some c →
      (c → t.pc.toNat = (s.pc.toNat + 4) % 65536) ∧ (¬ c → t.pc.toNat = (s.pc.toNat + 2) % 65536)

/-- The column "Written by" of 10_state.md section 1, for instructions. -/
def Obligations.StateIsWrittenOnlyByItsListedInstructions : Prop :=
  ∀ (i : Instr) (s t : State), exec i s = .next t →
    ((∃ a, t.mem.read a ≠ s.mem.read a) → (∃ x, i = .ldB x) ∨ ∃ x, i = .storeRegs x) ∧
    (t.i ≠ s.i → (∃ n, i = .ldI n) ∨ (∃ x, i = .addI x) ∨ ∃ x, i = .ldF x) ∧
    (t.stack ≠ s.stack → ∃ n, i = .call n) ∧
    (t.sp ≠ s.sp → i = .ret ∨ ∃ n, i = .call n) ∧
    (t.fb ≠ s.fb → i = .cls ∨ ∃ x y n, i = .drw x y n) ∧
    (t.draw ≠ s.draw → i = .cls ∨ ∃ x y n, i = .drw x y n) ∧
    (t.dt ≠ s.dt → ∃ x, i = .ldDtVx x) ∧ (t.st ≠ s.st → ∃ x, i = .ldStVx x) ∧
    (t.keys ≠ s.keys → (∃ x, i = .skp x) ∨ ∃ x, i = .sknp x) ∧
    (t.kw ≠ s.kw → ∃ x, i = .ldVxK x) ∧ (t.kwReg ≠ s.kwReg → ∃ x, i = .ldVxK x) ∧
    t.sndEnd = s.sndEnd

/-- VF is written as a side effect by exactly six instructions, each writing 0 or 1; every other
instruction leaves it alone unless it is the named destination (10_state.md R11). -/
def Obligations.OnlySixInstructionsWriteTheFlag : Prop :=
  ∀ (i : Instr) (s t : State), exec i s = .next t →
    (WritesFlag i → t.v 15 = 0 ∨ t.v 15 = 1) ∧ (t.v 15 ≠ s.v 15 → WritesFlag i ∨ NamesVF i)

/-! ## Errors (60_exceptions.md) -/

/-- R196: an operation that raises an error changes no state; a step repeated after an error raises the
same error again, whatever byte is on its `rnd` input. -/
def Obligations.ErrorsChangeNothingAndRepeat : Prop :=
  ∀ (o : Operation) (s t : State) (f : Fault), perform o s = (.error f, t) →
    t = s ∧ ∀ r, o = .step r → ∀ r', perform (.step r') t = (.error f, t)

/-- R195: the conditions in their order: blocked, FETCH, DecodeError, the instruction's own, and of
those MEM_WRITE and MEM_PROTECT never together. -/
def Obligations.StepErrorPriority : Prop :=
  ∀ (s : State) (r : Byte),
    (s.kw = true → perform (.step r) s = (.blocked, s)) ∧
    (s.kw = false → 0xFFE < s.pc.toNat →
      perform (.step r) s = (.error (.outOfRange .fetch s.pc.toNat), s)) ∧
    ∀ op, Fetches s op →
      (∀ e, decodeWord op = .error e → perform (.step r) s = (.error (.decodeError op), s)) ∧
      ∀ i f, decodeWord op = .ok i → Raises i s f →
        perform (.step r) s = (.error f, s) ∧ ∀ g, Raises i s g → g = f

/-- R190, R192, R197: the code, the kind number and the information of every outcome. -/
def Obligations.ReportCodesAndInformation : Prop :=
  Result.ok.code = 0 ∧ Result.blocked.code = 0 ∧ Result.ok.blockedBit = false ∧
  Result.blocked.blockedBit = true ∧ Result.ok.info = none ∧ Result.blocked.info = none ∧
  (∀ f, (Result.error f).blockedBit = false) ∧
  (∀ op, (Result.error (.decodeError op)).code = 1 ∧
    (Result.error (.decodeError op)).info = some (.opcode op)) ∧
  (∀ op, (Result.error (.resourceExhausted op)).code = 3 ∧
    (Result.error (.resourceExhausted op)).info = some (.opcode op)) ∧
  (∀ k v, (Result.error (.outOfRange k v)).code = 2) ∧
  ∀ v, [RangeKind.fetch, .memRead, .memWrite, .memProtect, .stack, .key, .glyph, .load].map
      (fun k => (Result.error (.outOfRange k v)).info) =
    [some (.range 0 v), some (.range 1 v), some (.range 2 v), some (.range 3 v), some (.range 4 v),
      some (.range 5 v), some (.range 6 v), some (.range 7 v)]

/-! ## Control transfer (41_control_flow.md) -/

/-- R102, R104: JP sets PC to NNN, JP V0 to NNN + V0, not masked to 12 bits; nothing else changes. -/
def Obligations.JumpsSetTheProgramCounter : Prop :=
  ∀ (nnn : Imm12) (s : State),
    (∃ t, exec (.jp nnn) s = .next t ∧ t.pc.toNat = nnn.toNat ∧ UnchangedBut [.pc] s t) ∧
    ∃ t, exec (.jpV0 nnn) s = .next t ∧ t.pc.toNat = nnn.toNat + (s.v 0).toNat ∧
      UnchangedBut [.pc] s t

/-- R103: CALL pushes PC + 2 at STACK[SP], adds one to SP and jumps; with SP = 16 it raises
ResourceExhausted with its own opcode. -/
def Obligations.CallPushesTheReturnAddress : Prop :=
  ∀ (nnn : Imm12) (s : State),
    (s.sp.val = 16 →
      exec (.call nnn) s = .fault (.resourceExhausted (BitVec.ofNat 16 (0x2000 + nnn.toNat)))) ∧
    ∀ h : s.sp.val < 16, ∃ t, exec (.call nnn) s = .next t ∧
      (t.stack[s.sp.val]).toNat = (s.pc.toNat + 2) % 65536 ∧ t.sp.val = s.sp.val + 1 ∧
      t.pc.toNat = nnn.toNat ∧ UnchangedBut [.stackEntry ⟨s.sp.val, h⟩, .sp, .pc] s t

/-- R101: RET takes one from SP and loads PC with STACK[SP], with no +2, the entry keeping its value;
with SP = 0 it raises OutOfRangeError(STACK, 0). -/
def Obligations.ReturnPopsTheReturnAddress : Prop :=
  ∀ s : State,
    (s.sp.val = 0 → exec .ret s = .fault (.outOfRange .stack 0)) ∧
    ∀ n : Fin 16, s.sp.val = n.val + 1 → ∃ t, exec .ret s = .next t ∧ t.sp.val = n.val ∧
      t.pc = s.stack[n.val] ∧ UnchangedBut [.sp, .pc] s t

/-- R100: a SYS instruction always raises DecodeError(op), and the step that fetches a SYS word
changes nothing. -/
def Obligations.SysAlwaysRaisesDecodeError : Prop :=
  (∀ (nnn : Imm12) (s : State), exec (.sys nnn) s = .fault (.decodeError (BitVec.ofNat 16 nnn.toNat))) ∧
  ∀ (op : Word) (s : State) (r : Byte), Fetches s op → op &&& 0xF000 = 0x0000 → op ≠ 0x00E0 →
    op ≠ 0x00EE → perform (.step r) s = (.error (.decodeError op), s)

/-- R105: a CALL at address A with SP < 16, and a later RET with as many CALLs as RETs between (the
depth never falls to what it was before the CALL, and is one more at the RET), whatever else the host
does but reset, returns PC to A + 2 and SP to its value before the CALL. -/
def Obligations.MatchingReturnResumesAfterTheCall : Prop :=
  ∀ (s s1 t : State) (nnn : Imm12) (r r' : Byte) (os : List Operation) (op op' : Word),
    Fetches s op → decodeWord op = .ok (.call nnn) → perform (.step r) s = (.ok, s1) →
    (∀ o ∈ os, o ≠ .reset) →
    (∀ k ≤ os.length, s.sp.val < (runScript (os.take k) s1).sp.val) →
    (runScript os s1).sp.val = s.sp.val + 1 →
    Fetches (runScript os s1) op' → decodeWord op' = .ok .ret →
    perform (.step r') (runScript os s1) = (.ok, t) →
    t.pc.toNat = (s.pc.toNat + 2) % 65536 ∧ t.sp = s.sp

/-- R16: an entry that is live before an operation other than reset, and live after it, is the same
entry: only a push writes the stack, and only above the live entries. -/
def Obligations.LiveStackEntriesAreKept : Prop :=
  ∀ (o : Operation) (s : State) (n : Fin 16), o ≠ .reset → n.val < s.sp.val →
    n.val < (perform o s).2.sp.val → (perform o s).2.stack[n.val] = s.stack[n.val]

/-! ## Arithmetic, logic and skips (42_alu_and_skip.md) -/

/-- R110 to R113: the four compare-and-skip instructions; only PC changes.
The last clause is the low nibble of 5XY0 and 9XY0, which must be 0. -/
def Obligations.SkipsCompareAndSkip : Prop :=
  (∀ (x y : Reg) (kk : Byte) (s : State),
    (∃ t, exec (.seByte x kk) s = .next t ∧
      t.pc.toNat = (s.pc.toNat + if s.v x = kk then 4 else 2) % 65536 ∧ UnchangedBut [.pc] s t) ∧
    (∃ t, exec (.sneByte x kk) s = .next t ∧
      t.pc.toNat = (s.pc.toNat + if s.v x ≠ kk then 4 else 2) % 65536 ∧ UnchangedBut [.pc] s t) ∧
    (∃ t, exec (.seReg x y) s = .next t ∧
      t.pc.toNat = (s.pc.toNat + if s.v x = s.v y then 4 else 2) % 65536 ∧
      UnchangedBut [.pc] s t) ∧
    ∃ t, exec (.sneReg x y) s = .next t ∧
      t.pc.toNat = (s.pc.toNat + if s.v x ≠ s.v y then 4 else 2) % 65536 ∧
      UnchangedBut [.pc] s t) ∧
  ∀ op : Word, op.toNat / 4096 = 5 ∨ op.toNat / 4096 = 9 → op.toNat % 16 ≠ 0 →
    decodeWord op = .error (.noSuchInstruction op)

/-- R114, R115: load immediate, and add immediate modulo 256 with VF untouched unless it is Vx. -/
def Obligations.ImmediateLoadAndAdd : Prop :=
  ∀ (x : Reg) (kk : Byte) (s : State),
    (∃ t, exec (.ldByte x kk) s = .next t ∧ t.v x = kk ∧
      t.pc.toNat = (s.pc.toNat + 2) % 65536 ∧ UnchangedBut [.v x, .pc] s t) ∧
    ∃ t, exec (.addByte x kk) s = .next t ∧
      (t.v x).toNat = ((s.v x).toNat + kk.toNat) % 256 ∧
      t.pc.toNat = (s.pc.toNat + 2) % 65536 ∧ UnchangedBut [.v x, .pc] s t

/-- R116 to R119: assign, OR, AND, XOR, bit by bit; VF untouched unless it is Vx. -/
def Obligations.AssignAndBitwiseOperations : Prop :=
  ∀ (x y : Reg) (s : State),
    (∃ t, exec (.ldReg x y) s = .next t ∧ t.v x = s.v y ∧
      t.pc.toNat = (s.pc.toNat + 2) % 65536 ∧ UnchangedBut [.v x, .pc] s t) ∧
    (∃ t, exec (.orReg x y) s = .next t ∧
      (∀ b < 8, (t.v x).getLsbD b = ((s.v x).getLsbD b || (s.v y).getLsbD b)) ∧
      t.pc.toNat = (s.pc.toNat + 2) % 65536 ∧ UnchangedBut [.v x, .pc] s t) ∧
    (∃ t, exec (.andReg x y) s = .next t ∧
      (∀ b < 8, (t.v x).getLsbD b = ((s.v x).getLsbD b && (s.v y).getLsbD b)) ∧
      t.pc.toNat = (s.pc.toNat + 2) % 65536 ∧ UnchangedBut [.v x, .pc] s t) ∧
    ∃ t, exec (.xorReg x y) s = .next t ∧
      (∀ b < 8, (t.v x).getLsbD b = ((s.v x).getLsbD b ^^ (s.v y).getLsbD b)) ∧
      t.pc.toNat = (s.pc.toNat + 2) % 65536 ∧ UnchangedBut [.v x, .pc] s t

/-- R120: the sum modulo 256 in Vx, the carry in VF; with X = F the flag is what VF holds. -/
def Obligations.AddSetsSumAndCarry : Prop :=
  ∀ (x y : Reg) (s : State), ∃ t, exec (.addReg x y) s = .next t ∧
    (x ≠ 15 → (t.v x).toNat = ((s.v x).toNat + (s.v y).toNat) % 256) ∧
    (t.v 15).toNat = (if 255 < (s.v x).toNat + (s.v y).toNat then 1 else 0) ∧
    t.pc.toNat = (s.pc.toNat + 2) % 65536 ∧ UnchangedBut [.v x, .v 15, .pc] s t

/-- R121, R123: Vx − Vy, and Vy − Vx, modulo 256 in Vx, not-borrow in VF; with X = F the flag is what
VF holds. -/
def Obligations.SubtractionsSetDifferenceAndNotBorrow : Prop :=
  ∀ (x y : Reg) (s : State),
    (∃ t, exec (.subReg x y) s = .next t ∧
      (x ≠ 15 → ((t.v x).toNat : Int) = (((s.v x).toNat : Int) - (s.v y).toNat) % 256) ∧
      (t.v 15).toNat = (if (s.v x).toNat ≥ (s.v y).toNat then 1 else 0) ∧
      t.pc.toNat = (s.pc.toNat + 2) % 65536 ∧ UnchangedBut [.v x, .v 15, .pc] s t) ∧
    ∃ t, exec (.subn x y) s = .next t ∧
      (x ≠ 15 → ((t.v x).toNat : Int) = (((s.v y).toNat : Int) - (s.v x).toNat) % 256) ∧
      (t.v 15).toNat = (if (s.v y).toNat ≥ (s.v x).toNat then 1 else 0) ∧
      t.pc.toNat = (s.pc.toNat + 2) % 65536 ∧ UnchangedBut [.v x, .v 15, .pc] s t

/-- R122, R124: Vx shifted by one in place, the bit shifted out in VF, Y ignored; with X = F the flag is
what VF holds.
The last two clauses are the other value of the OPEN parameter, SHIFT_SRC = VY: Vy shifted into Vx. -/
def Obligations.ShiftsMoveOneBitOut : Prop :=
  ∀ (x y : Reg) (s : State),
    (∃ t, exec (.shr x y) s = .next t ∧ (x ≠ 15 → (t.v x).toNat = (s.v x).toNat / 2) ∧
      (t.v 15).toNat = (s.v x).toNat % 2 ∧ t.pc.toNat = (s.pc.toNat + 2) % 65536 ∧
      UnchangedBut [.v x, .v 15, .pc] s t) ∧
    (∃ t, exec (.shl x y) s = .next t ∧ (x ≠ 15 → (t.v x).toNat = (s.v x).toNat * 2 % 256) ∧
      (t.v 15).toNat = (s.v x).toNat / 128 ∧ t.pc.toNat = (s.pc.toNat + 2) % 65536 ∧
      UnchangedBut [.v x, .v 15, .pc] s t) ∧
    (∃ t, shiftRight .vy x y s = .next t ∧ (x ≠ 15 → (t.v x).toNat = (s.v y).toNat / 2) ∧
      (t.v 15).toNat = (s.v y).toNat % 2 ∧ t.pc.toNat = (s.pc.toNat + 2) % 65536 ∧
      UnchangedBut [.v x, .v 15, .pc] s t) ∧
    ∃ t, shiftLeft .vy x y s = .next t ∧ (x ≠ 15 → (t.v x).toNat = (s.v y).toNat * 2 % 256) ∧
      (t.v 15).toNat = (s.v y).toNat / 128 ∧ t.pc.toNat = (s.pc.toNat + 2) % 65536 ∧
      UnchangedBut [.v x, .v 15, .pc] s t

/-- R135: for every byte r the host supplies with the step, RND puts r AND KK in Vx; every other
instruction ignores r: a step that does not execute RND has the same outcome and leaves the same state
whatever byte the host supplies. -/
def Obligations.RandomIsTheSuppliedByteMasked : Prop :=
  (∀ (x : Reg) (kk : Byte) (s : State) (op : Word) (r : Byte),
    Fetches s op → decodeWord op = .ok (.rnd x kk) →
    ∃ t, perform (.step r) s = (.ok, t) ∧ t.v x = r &&& kk ∧
      t.pc.toNat = (s.pc.toNat + 2) % 65536 ∧
      UnchangedBut [.v x, .pc, .dt, .st, .sndEnd, .draw] s t) ∧
  ∀ (s : State) (r r' : Byte),
    (∀ op x kk, Fetches s op → decodeWord op ≠ .ok (.rnd x kk)) →
    perform (.step r) s = perform (.step r') s

/-- RND as an instruction, over the model's own fields for the `rnd` input (the model's choice, log 1):
Vx is the sampled byte AND KK; the sampled byte is the first of `rndInputs`, which it leaves, or, where
none is listed, the free value at `rndCount`, which goes up by one. -/
def Obligations.RandomTakesTheSampledByte : Prop :=
  ∀ (x : Reg) (kk : Byte) (s : State), ∃ t, exec (.rnd x kk) s = .next t ∧
    t.v x = s.rndByte &&& kk ∧ t.pc.toNat = (s.pc.toNat + 2) % 65536 ∧
    UnchangedBut [.v x, .pc, .rnd] s t ∧
    (∀ r rest, s.rndInputs = r :: rest →
      s.rndByte = r ∧ t.rndInputs = rest ∧ t.rndCount = s.rndCount) ∧
    (s.rndInputs = [] →
      s.rndByte = Config.rnd s.rndCount ∧ t.rndInputs = [] ∧ t.rndCount = s.rndCount + 1)

/-! ## Framebuffer (43_draw.md) -/

/-- R140: every pixel 0, DRAW 1, VF and everything else unchanged; with CLS_SETS_DRAW = false the clear
leaves DRAW. -/
def Obligations.ClearScreenClearsEveryPixel : Prop :=
  ∀ s : State,
    (∃ t, exec .cls s = .next t ∧ (∀ x y, t.fb.pixel x y = false) ∧ t.draw = true ∧
      t.pc.toNat = (s.pc.toNat + 2) % 65536 ∧ UnchangedBut [.pixels, .draw, .pc] s t) ∧
    (∀ x y, (s.clearScreen false).fb.pixel x y = false) ∧
    UnchangedBut [.pixels] s (s.clearScreen false)

/-- R141, R142 (2) and (3): DRW toggles exactly the pixels a set sprite bit maps onto, each coordinate
wrapping on its own, and VF says whether one of them was 1; it faults exactly when N ≥ 1 and the last
sprite byte lies above 0xFFF. -/
def Obligations.DrawXorsTheSpriteAndReportsCollision : Prop :=
  ∀ (x y : Reg) (n : Nibble) (s : State),
    (1 ≤ n.toNat → 0xFFF < s.i.toNat + n.toNat - 1 →
      exec (.drw x y n) s = .fault (.outOfRange .memRead (s.i.toNat + n.toNat - 1))) ∧
    (n.toNat = 0 ∨ s.i.toNat + n.toNat - 1 ≤ 0xFFF →
      ∃ t, exec (.drw x y n) s = .next t ∧
        (∀ px < 64, ∀ py < 32, t.fb.pixel px py ≠ s.fb.pixel px py ↔ SpriteBitAt x y n s px py) ∧
        ((∃ px < 64, ∃ py < 32, SpriteBitAt x y n s px py ∧ s.fb.pixel px py = true) → t.v 15 = 1) ∧
        ((∀ px < 64, ∀ py < 32, SpriteBitAt x y n s px py → s.fb.pixel px py = false) →
          t.v 15 = 0) ∧
        t.draw = true ∧ t.pc.toNat = (s.pc.toNat + 2) % 65536 ∧
        UnchangedBut [.v 15, .pixels, .draw, .pc] s t)

/-- R142 (4), first half: a second identical DRW, with I, the sprite bytes, Vx, Vy and FB as the first
left or found them, leaves FB as before the first.
Its VF is 1 exactly when a set sprite bit maps onto a pixel that was 0 before the first, as R141 gives it
(log 6: the second half of R142 (4) is narrower). -/
def Obligations.DrawingTwiceRestoresTheScreen : Prop :=
  ∀ (x y : Reg) (n : Nibble) (s t t' : State), exec (.drw x y n) s = .next t →
    t'.fb = t.fb → t'.i = s.i → (∀ a, t'.mem.read a = s.mem.read a) → t'.v x = s.v x →
    t'.v y = s.v y →
    ∃ u, exec (.drw x y n) t' = .next u ∧ u.fb = s.fb ∧ (u.v 15 = 0 ∨ u.v 15 = 1) ∧
      (u.v 15 = 1 ↔ ∃ px < 64, ∃ py < 32, SpriteBitAt x y n s px py ∧ s.fb.pixel px py = false)

/-- The second half of R142 (4) as it stands, of every framebuffer: the second of two identical DRWs sets
VF to 1 if the sprite has any set bit.
Expected to FAIL: a pixel that is 1 before the first draw is 0 before the second, so by the pseudocode of
R141 it does not collide there (log 6). -/
def Obligations.SecondDrawAlwaysCollides : Prop :=
  ∀ (x y : Reg) (n : Nibble) (s t u : State), x ≠ 15 → y ≠ 15 → exec (.drw x y n) s = .next t →
    exec (.drw x y n) t = .next u →
    (∃ r < n.toNat, ∃ c < 8, (s.mem.read (s.i.toNat + r)).getLsbD c = true) → u.v 15 = 1

/-! ## Keys and timers (44_keys_and_timers.md) -/

/-- R150, R151: SKP and SKNP test the key whose number is in Vx, clear its flag either way, and raise
OutOfRangeError(KEY, Vx) when Vx > 15. -/
def Obligations.KeyTestsSkipAndConsume : Prop :=
  ∀ (x : Reg) (s : State),
    (15 < (s.v x).toNat →
      exec (.skp x) s = .fault (.outOfRange .key (s.v x).toNat) ∧
      exec (.sknp x) s = .fault (.outOfRange .key (s.v x).toNat)) ∧
    ∀ k : Key, (s.v x).toNat = k.val →
      (∃ t, exec (.skp x) s = .next t ∧ t.key k = false ∧
        t.pc.toNat = (s.pc.toNat + if s.key k = true then 4 else 2) % 65536 ∧
        UnchangedBut [.key k, .pc] s t) ∧
      ∃ t, exec (.sknp x) s = .next t ∧ t.key k = false ∧
        t.pc.toNat = (s.pc.toNat + if s.key k = false then 4 else 2) % 65536 ∧
        UnchangedBut [.key k, .pc] s t

/-- R152: LD Vx,K sets KW and KWREG and advances PC; Vx and the key flags are untouched; the step that
executes it runs its timer phase, and the next step is blocked. -/
def Obligations.AwaitKeyEntersKeyWait : Prop :=
  ∀ (x : Reg) (s : State),
    (∃ t, exec (.ldVxK x) s = .next t ∧ t.kw = true ∧ t.kwReg = x ∧
      t.pc.toNat = (s.pc.toNat + 2) % 65536 ∧ UnchangedBut [.kw, .kwReg, .pc] s t) ∧
    ∀ op, Fetches s op → decodeWord op = .ok (.ldVxK x) →
      ∃ t, step s = .next t ∧ t.kw = true ∧ t.dt.toNat = s.dt.toNat - 1 ∧
        t.st.toNat = s.st.toNat - 1 ∧ step t = .next t

/-- R153, R154, R155: the three timer instructions move a byte between Vx and a timer; over a whole step
the value FX07 reads is the one before the tick, and a value FX15 or FX18 writes is ticked at once. -/
def Obligations.TimerInstructionsMoveTheByte : Prop :=
  ∀ (x : Reg) (s : State),
    (∃ t, exec (.ldVxDt x) s = .next t ∧ t.v x = s.dt ∧
      t.pc.toNat = (s.pc.toNat + 2) % 65536 ∧ UnchangedBut [.v x, .pc] s t) ∧
    (∃ t, exec (.ldDtVx x) s = .next t ∧ t.dt = s.v x ∧
      t.pc.toNat = (s.pc.toNat + 2) % 65536 ∧ UnchangedBut [.dt, .pc] s t) ∧
    (∃ t, exec (.ldStVx x) s = .next t ∧ t.st = s.v x ∧
      t.pc.toNat = (s.pc.toNat + 2) % 65536 ∧ UnchangedBut [.st, .pc] s t) ∧
    ∀ op, Fetches s op →
      (decodeWord op = .ok (.ldVxDt x) →
        ∃ t, step s = .next t ∧ t.v x = s.dt ∧ t.dt.toNat = s.dt.toNat - 1) ∧
      (decodeWord op = .ok (.ldDtVx x) →
        ∃ t, step s = .next t ∧ t.dt.toNat = (s.v x).toNat - 1) ∧
      (decodeWord op = .ok (.ldStVx x) → ∃ t, step s = .next t ∧
        t.st.toNat = (s.v x).toNat - 1 ∧ (t.sndEnd = true ↔ (s.v x).toNat = 1) ∧
        (t.outputs.soundOn = true ↔ 2 ≤ (s.v x).toNat))

/-- R156: deliverKey sets the key's flag, and while KW = 1 also writes the key number to V[KWREG] and
ends the wait; it always succeeds and changes nothing else. -/
def Obligations.DeliverKeyRecordsAndResolves : Prop :=
  ∀ (k : Key) (s : State), ∃ t, perform (.deliverKey k) s = (.ok, t) ∧ t.key k = true ∧
    t.kw = false ∧ (s.kw = true → (t.v s.kwReg).toNat = k.val) ∧
    (s.kw = true → UnchangedBut [.key k, .v s.kwReg, .kw] s t) ∧
    (s.kw = false → UnchangedBut [.key k] s t)

/-- R157: the await-key instruction suspends everything but memory (which load may write) through any
number of steps and loads, each step BLOCKED, until a key is delivered; then Vx holds the key's number,
PC is the address after the instruction and the next step is not blocked. -/
def Obligations.KeyWaitSuspendsUntilDelivery : Prop :=
  ∀ (s : State) (op : Word) (x : Reg) (r : Byte), Fetches s op → decodeWord op = .ok (.ldVxK x) →
    ∃ s1, perform (.step r) s = (.ok, s1) ∧ s1.kw = true ∧
      s1.pc.toNat = (s.pc.toNat + 2) % 65536 ∧
      ∀ os : List Operation, (∀ o ∈ os, StepOrLoad o) →
        UnchangedBut [.mem] s1 (runScript os s1) ∧
        (∀ r', perform (.step r') (runScript os s1) = (.blocked, runScript os s1)) ∧
        ∀ k, ∃ t, perform (.deliverKey k) (runScript os s1) = (.ok, t) ∧ t.kw = false ∧
          (t.v x).toNat = k.val ∧ t.key k = true ∧
          UnchangedBut [.v x, .kw, .key k] (runScript os s1) t

/-- R157, state WAIT: from every state with KW = 1 each step and each load leaves KW = 1 and everything
but memory. -/
def Obligations.KeyWaitIsKeptByStepsAndLoads : Prop :=
  ∀ (o : Operation) (s : State), s.kw = true → StepOrLoad o →
    (perform o s).2.kw = true ∧ UnchangedBut [.mem] s (perform o s).2

/-! ## Index register and memory (45_index_and_memory.md, 20_memory.md) -/

/-- R170, R171: load I, and add Vx to I modulo 65536; VF untouched. -/
def Obligations.IndexLoadAndAdd : Prop :=
  (∀ (nnn : Imm12) (s : State), ∃ t, exec (.ldI nnn) s = .next t ∧ t.i.toNat = nnn.toNat ∧
    t.pc.toNat = (s.pc.toNat + 2) % 65536 ∧ UnchangedBut [.i, .pc] s t) ∧
  ∀ (x : Reg) (s : State), ∃ t, exec (.addI x) s = .next t ∧
    t.i.toNat = (s.i.toNat + (s.v x).toNat) % 65536 ∧
    t.pc.toNat = (s.pc.toNat + 2) % 65536 ∧ UnchangedBut [.i, .pc] s t

/-- R172: I <- 5·d for the digit d in Vx; OutOfRangeError(GLYPH, d) when d > 15. -/
def Obligations.GlyphAddressIsFiveTimesTheDigit : Prop :=
  ∀ (x : Reg) (s : State),
    (15 < (s.v x).toNat → exec (.ldF x) s = .fault (.outOfRange .glyph (s.v x).toNat)) ∧
    ((s.v x).toNat ≤ 15 → ∃ t, exec (.ldF x) s = .next t ∧ t.i.toNat = 5 * (s.v x).toNat ∧
      t.pc.toNat = (s.pc.toNat + 2) % 65536 ∧ UnchangedBut [.i, .pc] s t)

/-- R173: the hundreds, tens and ones of Vx at I, I+1, I+2, every other byte unchanged; MEM_WRITE, then
MEM_PROTECT, which LOW_MEM_WRITABLE = true lifts. -/
def Obligations.DecimalDigitsAreStored : Prop :=
  ∀ (x : Reg) (s : State),
    let Stored := fun t : State =>
      (t.mem.read (s.addr 0)).toNat = (s.v x).toNat / 100 ∧
      (t.mem.read (s.addr 1)).toNat = (s.v x).toNat / 10 % 10 ∧
      (t.mem.read (s.addr 2)).toNat = (s.v x).toNat % 10 ∧
      (∀ a, a < s.addr 0 ∨ s.addr 2 < a → t.mem.read a = s.mem.read a) ∧
      t.pc.toNat = (s.pc.toNat + 2) % 65536 ∧ UnchangedBut [.mem, .pc] s t
    (0xFFF < s.i.toNat + 2 → exec (.ldB x) s = .fault (.outOfRange .memWrite (s.i.toNat + 2))) ∧
    (s.i.toNat + 2 ≤ 0xFFF → s.i.toNat < 0x200 →
      exec (.ldB x) s = .fault (.outOfRange .memProtect s.i.toNat)) ∧
    (s.i.toNat + 2 ≤ 0xFFF → 0x200 ≤ s.i.toNat → ∃ t, exec (.ldB x) s = .next t ∧ Stored t) ∧
    (s.i.toNat + 2 ≤ 0xFFF → ∃ t, storeDigits true x s = .next t ∧ Stored t)

/-- R175: V0 to Vx at I to I+X, every other byte and I unchanged; MEM_WRITE, then MEM_PROTECT, which
LOW_MEM_WRITABLE = true lifts. -/
def Obligations.RegisterDumpStoresTheBlock : Prop :=
  ∀ (x : Reg) (s : State),
    let Stored := fun t : State =>
      (∀ k : Reg, k.val ≤ x.val → t.mem.read (s.addr k.val) = s.v k) ∧
      (∀ a, a < s.addr 0 ∨ s.addr x.val < a → t.mem.read a = s.mem.read a) ∧
      t.pc.toNat = (s.pc.toNat + 2) % 65536 ∧ UnchangedBut [.mem, .pc] s t
    (0xFFF < s.i.toNat + x.val →
      exec (.storeRegs x) s = .fault (.outOfRange .memWrite (s.i.toNat + x.val))) ∧
    (s.i.toNat + x.val ≤ 0xFFF → s.i.toNat < 0x200 →
      exec (.storeRegs x) s = .fault (.outOfRange .memProtect s.i.toNat)) ∧
    (s.i.toNat + x.val ≤ 0xFFF → 0x200 ≤ s.i.toNat →
      ∃ t, exec (.storeRegs x) s = .next t ∧ Stored t) ∧
    (s.i.toNat + x.val ≤ 0xFFF → ∃ t, dumpRegs true x s = .next t ∧ Stored t)

/-- R176: V0 to Vx from I to I+X, the registers above X, memory and I unchanged; MEM_READ when the last
byte lies above 0xFFF; FX55 followed by FX65 with the same X and I restores the registers, whatever
happened to them between. -/
def Obligations.RegisterLoadReadsTheBlock : Prop :=
  (∀ (x : Reg) (s : State),
    (0xFFF < s.i.toNat + x.val →
      exec (.loadRegs x) s = .fault (.outOfRange .memRead (s.i.toNat + x.val))) ∧
    (s.i.toNat + x.val ≤ 0xFFF → ∃ t, exec (.loadRegs x) s = .next t ∧
      (∀ k : Reg, k.val ≤ x.val → t.v k = s.mem.read (s.addr k.val)) ∧
      t.pc.toNat = (s.pc.toNat + 2) % 65536 ∧
      UnchangedBut (.pc :: ((List.finRange 16).filter fun k => k.val ≤ x.val).map .v) s t)) ∧
  ∀ (x : Reg) (s t t' : State), exec (.storeRegs x) s = .next t →
    (∀ a, t'.mem.read a = t.mem.read a) → t'.i = s.i →
    ∃ u, exec (.loadRegs x) t' = .next u ∧ ∀ k : Reg, k.val ≤ x.val → u.v k = s.v k

/-- R51: bytes FX55 stores at the address PC then holds are the word the very next fetch reads. -/
def Obligations.StoredWordIsTheNextFetched : Prop :=
  ∀ (x : Reg) (s t : State) (k : Nat), exec (.storeRegs x) s = .next t →
    t.pc.toNat = s.addr k → ∀ h : k + 1 ≤ x.val,
      t.fetch = .ok (s.v ⟨k, by omega⟩ ++ s.v ⟨k + 1, by omega⟩)

/-- R48: load places byte i of an image of at most 3584 bytes at 0x200 + i and changes nothing else; a
longer image raises OutOfRangeError(LOAD, L) and writes nothing. -/
def Obligations.LoadPlacesTheImage : Prop :=
  ∀ (image : List Byte) (s : State),
    (3584 < image.length →
      perform (.load image) s = (.error (.outOfRange .load image.length), s)) ∧
    (image.length ≤ 3584 → ∃ t, perform (.load image) s = (.ok, t) ∧
      (∀ (k : Nat) (h : k < image.length), t.mem.read (0x200 + k) = image[k]) ∧
      (∀ a, a < 0x200 ∨ 0x200 + image.length ≤ a → t.mem.read a = s.mem.read a) ∧
      UnchangedBut [.mem] s t)

/-- "font glyphs ... never mutated afterward": no sequence of host operations without a reset changes a
byte below 0x200, from any state (R46, R48; the default LOW_MEM_WRITABLE = false). -/
def Obligations.MemoryBelowTheProgramNeverChanges : Prop :=
  ∀ (os : List Operation) (s : State), (∀ o ∈ os, o ≠ .reset) →
    ∀ a < 0x200, (runScript os s).mem.read a = s.mem.read a

/-! ## Reset (70_reset_and_hazards.md) -/

/-- R220: reset leaves the table's state from any state, with outcome OK, and is the only operation
besides deliverKey that clears KW. -/
def Obligations.ResetLeavesTheTable : Prop :=
  ResetTable core.reset ∧ (∀ s : State, ∃ t, perform .reset s = (.ok, t) ∧ ResetTable t) ∧
  ∀ (o : Operation) (s : State), s.kw = true → (perform o s).2.kw = false →
    o = .reset ∨ ∃ k, o = .deliverKey k

/-- A second reset changes nothing, and what a reset leaves depends on nothing before it but the model's
own fields for the `rnd` input (log 1). -/
def Obligations.ResetIsIdempotentAndForgets : Prop :=
  ∀ s s' : State,
    perform .reset (perform .reset s).2 = perform .reset s ∧
    (s.rndInputs = s'.rndInputs → s.rndCount = s'.rndCount → perform .reset s = perform .reset s')

/-! ## Invariants -/

/-- The reset state meets the invariant. -/
def Obligations.ResetMeetsTheInvariant : Prop := State.reset.Inv

/-- Every step from a state that meets the invariant leaves one that does. -/
def Obligations.StepKeepsTheInvariant : Prop :=
  ∀ s t : State, s.Inv → step s = .next t → t.Inv

/-- Every sequence of the host's operations, resets, loads and key deliveries among them, keeps the
invariant. -/
def Obligations.HostScriptsKeepTheInvariant : Prop :=
  ∀ (os : List Operation) (s : State), s.Inv → (runScript os s).Inv

/-! ## What nothing looks at (10_state.md R16, R20) -/

/-- R16, R20: stack entries at SP and above are "never read before being overwritten", and KWREG is
"meaningful only while KW = 1": states that differ only there give the same outcomes and again differ
only there, whatever the host does. -/
def Obligations.DeadStateIsNeverRead : Prop :=
  ∀ (os : List Operation) (s t : State), SameLive s t →
    SameLive (runScript os s) (runScript os t) ∧ ∀ o, (perform o s).1 = (perform o t).1

/-! ## Outputs and the host's placing of a word -/

/-- R25, R17, R22: the outputs are FB row by row, DRAW, ST ≠ 0, SND_END and KW. -/
def Obligations.OutputsShowTheState : Prop :=
  ∀ s : State, s.outputs.fb.length = 2048 ∧
    (∀ x < 64, ∀ y < 32, s.outputs.fb.getD (y * 64 + x) false = s.fb.pixel x y) ∧
    s.outputs.drawFlag = s.draw ∧ (s.outputs.soundOn = true ↔ s.st ≠ 0) ∧
    s.outputs.soundEnd = s.sndEnd ∧ s.outputs.keyWait = s.kw

/-- The model's own placing of a word (log 4): the next step fetches exactly it, and, where the machine
was not blocked and PC was a legal fetch address, nothing but its two bytes changes. -/
def Obligations.PlacedWordIsTheNextFetched : Prop :=
  ∀ (s : State) (w : Nat), w < 65536 →
    Fetches (s.withFetchWord 16 w) (BitVec.ofNat 16 w) ∧
    (s.kw = false → s.pc.toNat ≤ 0xFFE → UnchangedBut [.mem] s (s.withFetchWord 16 w) ∧
      ∀ a, a < s.pc.toNat ∨ s.pc.toNat + 1 < a →
        (s.withFetchWord 16 w).mem.read a = s.mem.read a)
end

