-- ==== Sys2Proof/Laws/Decode.lean ====
section
/-! SUPPORT. The fields of the words the encoder builds, and of words put together from bytes
(30_encoding.md R61, 20_memory.md R42). -/

namespace Sys2Proof

/-! ### Fields as numbers -/

theorem toNat_fieldF (op : Word) : (fieldF op).toNat = op.toNat / 0x1000 := by
  have := op.isLt
  simp only [fieldF, BitVec.extractLsb'_toNat, Nat.shiftRight_eq_div_pow]
  omega

theorem val_fieldX (op : Word) : (fieldX op).val = op.toNat / 0x100 % 16 := by
  show (op.extractLsb' 8 4).toNat = _
  simp only [BitVec.extractLsb'_toNat, Nat.shiftRight_eq_div_pow, Nat.reducePow]

theorem val_fieldY (op : Word) : (fieldY op).val = op.toNat / 0x10 % 16 := by
  show (op.extractLsb' 4 4).toNat = _
  simp only [BitVec.extractLsb'_toNat, Nat.shiftRight_eq_div_pow, Nat.reducePow]

theorem toNat_fieldN (op : Word) : (fieldN op).toNat = op.toNat % 16 := by
  simp [fieldN, BitVec.extractLsb'_toNat]

theorem toNat_fieldKK (op : Word) : (fieldKK op).toNat = op.toNat % 0x100 := by
  simp [fieldKK, BitVec.extractLsb'_toNat]

theorem toNat_fieldNNN (op : Word) : (fieldNNN op).toNat = op.toNat % 0x1000 := by
  simp [fieldNNN, BitVec.extractLsb'_toNat]

/-! ### Words as numbers -/

theorem toNat_wordNNN {f : Nat} (hf : f < 16) (nnn : Imm12) :
    (wordNNN f nnn).toNat = f * 0x1000 + nnn.toNat := by
  have := nnn.isLt
  simp only [wordNNN, BitVec.toNat_ofNat]; omega

theorem toNat_wordXKK {f : Nat} (hf : f < 16) (x : Reg) (kk : Byte) :
    (wordXKK f x kk).toNat = f * 0x1000 + x.val * 0x100 + kk.toNat := by
  have := kk.isLt; have := x.isLt
  simp only [wordXKK, BitVec.toNat_ofNat]; omega

theorem toNat_wordXYN {f : Nat} (hf : f < 16) (x y : Reg) (n : Nibble) :
    (wordXYN f x y n).toNat = f * 0x1000 + x.val * 0x100 + y.val * 0x10 + n.toNat := by
  have := n.isLt; have := x.isLt; have := y.isLt
  simp only [wordXYN, BitVec.toNat_ofNat]; omega

/-! ### Fields of the words the encoder builds -/

theorem fields_wordNNN {f : Nat} (hf : f < 16) (nnn : Imm12) :
    fieldF (wordNNN f nnn) = BitVec.ofNat 4 f ∧ fieldNNN (wordNNN f nnn) = nnn := by
  have := nnn.isLt
  constructor <;> apply BitVec.eq_of_toNat_eq
  · rw [toNat_fieldF, toNat_wordNNN hf, BitVec.toNat_ofNat]; omega
  · rw [toNat_fieldNNN, toNat_wordNNN hf]; omega

theorem fields_wordXKK {f : Nat} (hf : f < 16) (x : Reg) (kk : Byte) :
    fieldF (wordXKK f x kk) = BitVec.ofNat 4 f ∧ fieldX (wordXKK f x kk) = x ∧
      fieldKK (wordXKK f x kk) = kk := by
  have := kk.isLt; have := x.isLt
  refine ⟨?_, ?_, ?_⟩
  · apply BitVec.eq_of_toNat_eq; rw [toNat_fieldF, toNat_wordXKK hf, BitVec.toNat_ofNat]; omega
  · apply Fin.ext; rw [val_fieldX, toNat_wordXKK hf]; omega
  · apply BitVec.eq_of_toNat_eq; rw [toNat_fieldKK, toNat_wordXKK hf]; omega

theorem fields_wordXYN {f : Nat} (hf : f < 16) (x y : Reg) (n : Nibble) :
    fieldF (wordXYN f x y n) = BitVec.ofNat 4 f ∧ fieldX (wordXYN f x y n) = x ∧
      fieldY (wordXYN f x y n) = y ∧ fieldN (wordXYN f x y n) = n := by
  have := n.isLt; have := x.isLt; have := y.isLt
  refine ⟨?_, ?_, ?_, ?_⟩
  · apply BitVec.eq_of_toNat_eq; rw [toNat_fieldF, toNat_wordXYN hf, BitVec.toNat_ofNat]; omega
  · apply Fin.ext; rw [val_fieldX, toNat_wordXYN hf]; omega
  · apply Fin.ext; rw [val_fieldY, toNat_wordXYN hf]; omega
  · apply BitVec.eq_of_toNat_eq; rw [toNat_fieldN, toNat_wordXYN hf]; omega

/-! ### Bytes -/

/-- A word read back from the two bytes memory holds is the word. -/
theorem wordOfBytes_wordBytes (op : Word) :
    wordOfBytes (op.extractLsb' 8 8) (op.extractLsb' 0 8) = op := by
  apply BitVec.eq_of_getLsbD_eq
  intro k hk
  simp only [wordOfBytes, BitVec.getLsbD_append, BitVec.getLsbD_extractLsb']
  by_cases h : k < 8
  · simp [h]
  · have h1 : k - 8 < 8 := by omega
    have h2 : 8 + (k - 8) = k := by omega
    simp [h, h1, h2]

@[simp] theorem length_wordBytes (op : Word) : (wordBytes op).length = 2 := rfl

end Sys2Proof
end

