-- ==== Sys2Proof/Laws/Display.lean ====
section
/-! SUPPORT. Reading a pixel after a toggle, and what one sprite pixel, one sprite row and a whole sprite
do to the framebuffer and the collision flag (43_draw.md R141, R142). -/

namespace Sys2Proof.Machine

/-- A toggle flips its own pixel and no other; coordinates are taken modulo 64 and 32. -/
theorem FrameBuffer.pixel_toggle (f : FrameBuffer) (x y px py : Nat) :
    (f.toggle x y).pixel px py =
      if px % 64 = x % 64 ∧ py % 32 = y % 32 then !f.pixel px py else f.pixel px py := by
  have hx : x % 64 < 64 := Nat.mod_lt _ (by decide)
  unfold FrameBuffer.pixel FrameBuffer.toggle
  rw [Vector.getElem_set]
  by_cases hy : y % 32 = py % 32
  · by_cases he : x % 64 = px % 64
    · simp [hy, ← he, hx]
    · have he' : ¬ px % 64 = x % 64 := fun h => he h.symm
      simp [hy, he, he', BitVec.getLsbD_twoPow]
  · have hy' : ¬ py % 32 = y % 32 := fun h => hy h.symm
    simp [hy, hy']

/-- Two framebuffers with the same pixels are the same. -/
theorem FrameBuffer.ext_pixel {f g : FrameBuffer}
    (h : ∀ x < 64, ∀ y < 32, f.pixel x y = g.pixel x y) : f = g := by
  apply Vector.ext
  intro y hy
  apply BitVec.eq_of_getLsbD_eq
  intro x hx
  have := h x hx y hy
  simpa [FrameBuffer.pixel, Nat.mod_eq_of_lt hx, Nat.mod_eq_of_lt hy] using this

/-- Coordinates matter only modulo 64 and 32. -/
theorem FrameBuffer.pixel_mod (f : FrameBuffer) (x y : Nat) :
    f.pixel (x % 64) (y % 32) = f.pixel x y := by
  simp [FrameBuffer.pixel]

theorem blitPixel_false (acc : Blit) (x y : Nat) : blitPixel acc x y false = acc := rfl

theorem blitPixel_true (acc : Blit) (x y : Nat) :
    blitPixel acc x y true = ⟨acc.fb.toggle x y, acc.collision || acc.fb.pixel x y⟩ := rfl

/-- One sprite pixel: what it does to any pixel, and to the collision flag. -/
theorem blitPixel_spec (acc : Blit) (x y : Nat) (bit : Bool) (px py : Nat) :
    (blitPixel acc x y bit).fb.pixel px py =
        (acc.fb.pixel px py ^^ (bit && decide (px % 64 = x % 64 ∧ py % 32 = y % 32))) ∧
      (blitPixel acc x y bit).collision = (acc.collision || (bit && acc.fb.pixel x y)) := by
  cases bit
  · simp [blitPixel]
  · by_cases h : px % 64 = x % 64 ∧ py % 32 = y % 32 <;>
      simp [blitPixel, FrameBuffer.pixel_toggle, h]

/-- Pixel (px, py) is the one that column c of a sprite row at (x0, y) maps onto. -/
def hits (x0 y c px py : Nat) : Bool := decide (px % 64 = (x0 + c) % 64 ∧ py % 32 = y % 32)

/-- Distinct sprite columns, any list of them: each pixel is toggled by the one set bit that maps onto
it, and a collision is a set bit on a pixel that was 1. -/
theorem blitColumns_spec (x0 y : Nat) (b : Byte) (cs : List Nat) (hlt : ∀ c ∈ cs, c < 8)
    (hnd : cs.Nodup) (acc : Blit) (px py : Nat) :
    let r := cs.foldl (fun acc c => blitPixel acc (x0 + c) y (b.getLsbD (7 - c))) acc
    r.fb.pixel px py =
        (acc.fb.pixel px py ^^ cs.any fun c => b.getLsbD (7 - c) && hits x0 y c px py) ∧
      r.collision =
        (acc.collision || cs.any fun c => b.getLsbD (7 - c) && acc.fb.pixel (x0 + c) y) := by
  induction cs generalizing acc with
  | nil => simp
  | cons c cs ih =>
    simp only [List.mem_cons, forall_eq_or_imp] at hlt
    obtain ⟨hnotin, hnd⟩ := List.nodup_cons.1 hnd
    obtain ⟨ihp, ihc⟩ := ih hlt.2 hnd (blitPixel acc (x0 + c) y (b.getLsbD (7 - c)))
    have apart : ∀ d ∈ cs, ¬ (x0 + d) % 64 = (x0 + c) % 64 := fun d hd he => by
      have h1 := hlt.2 d hd; have h2 := hlt.1
      have : d = c := by omega
      exact hnotin (this ▸ hd)
    refine ⟨?_, ?_⟩
    · simp only [List.foldl_cons, ihp, (blitPixel_spec acc _ _ _ px py).1, List.any_cons]
      by_cases hh : px % 64 = (x0 + c) % 64 ∧ py % 32 = y % 32
      · have hrest : (cs.any fun d => b.getLsbD (7 - d) && hits x0 y d px py) = false := by
          simp only [List.any_eq_false, hits, Bool.and_eq_true, decide_eq_true_eq, not_and]
          exact fun d hd _ hx => absurd (hx.symm.trans hh.1) (apart d hd)
        rw [hrest]; simp [hits, hh]
      · simp [hits, hh]
    · have hrest : (cs.any fun d => b.getLsbD (7 - d) &&
          (blitPixel acc (x0 + c) y (b.getLsbD (7 - c))).fb.pixel (x0 + d) y) =
          cs.any fun d => b.getLsbD (7 - d) && acc.fb.pixel (x0 + d) y := by
        rw [Bool.eq_iff_iff]
        simp only [List.any_eq_true]
        refine exists_congr fun d => and_congr_right fun hd => ?_
        simp [(blitPixel_spec acc _ _ _ (x0 + d) y).1, apart d hd]
      simp only [List.foldl_cons, ihc, hrest, (blitPixel_spec acc _ _ _ px py).2, List.any_cons,
        Bool.or_assoc]

/-- One sprite row. -/
theorem blitRow_spec (acc : Blit) (x0 y : Nat) (b : Byte) (px py : Nat) :
    (blitRow acc x0 y b).fb.pixel px py = (acc.fb.pixel px py ^^
        [0, 1, 2, 3, 4, 5, 6, 7].any fun c => b.getLsbD (7 - c) && hits x0 y c px py) ∧
      (blitRow acc x0 y b).collision = (acc.collision ||
        [0, 1, 2, 3, 4, 5, 6, 7].any fun c => b.getLsbD (7 - c) && acc.fb.pixel (x0 + c) y) :=
  blitColumns_spec x0 y b _ (by decide) (by decide) acc px py

/-- Sprite pixel (c, r) of the rows is set. -/
def spriteBit (rows : List Byte) (r c : Nat) : Prop :=
  ∃ h : r < rows.length, c < 8 ∧ rows[r].getLsbD (7 - c) = true

theorem any_columns_iff (f : Nat → Bool) :
    ([0, 1, 2, 3, 4, 5, 6, 7].any f = true) ↔ ∃ c < 8, f c = true := by
  constructor
  · intro h
    obtain ⟨c, hc, hf⟩ := List.any_eq_true.1 h
    refine ⟨c, ?_, hf⟩
    simp at hc; omega
  · rintro ⟨c, hc, hf⟩
    refine List.any_eq_true.2 ⟨c, ?_, hf⟩
    have : c = 0 ∨ c = 1 ∨ c = 2 ∨ c = 3 ∨ c = 4 ∨ c = 5 ∨ c = 6 ∨ c = 7 := by omega
    simpa using this

/-- A set bit of a sprite lies in its first row or in the rest. -/
theorem exists_spriteBit_cons (b : Byte) (rows : List Byte) (P : Nat → Nat → Prop) :
    (∃ r c, spriteBit (b :: rows) r c ∧ P r c) ↔
      (∃ c < 8, b.getLsbD (7 - c) = true ∧ P 0 c) ∨ ∃ r c, spriteBit rows r c ∧ P (r + 1) c := by
  constructor
  · rintro ⟨r, c, ⟨h, hc, hb⟩, hP⟩
    cases r with
    | zero => exact .inl ⟨c, hc, by simpa using hb, hP⟩
    | succ r => exact .inr ⟨r, c, ⟨by simpa using h, hc, by simpa using hb⟩, hP⟩
  · rintro (⟨c, hc, hb, hP⟩ | ⟨r, c, ⟨h, hc, hb⟩, hP⟩)
    · exact ⟨0, c, ⟨by simp, hc, by simpa using hb⟩, hP⟩
    · exact ⟨r + 1, c, ⟨by simpa using h, hc, by simpa using hb⟩, hP⟩

theorem xor_ne_left_iff (a m : Bool) : (a ^^ m) ≠ a ↔ m = true := by
  cases a <;> cases m <;> simp

/-- A whole sprite of at most 32 rows: a pixel is toggled exactly when a set sprite bit maps onto it,
and the collision flag is set exactly when a set sprite bit maps onto a pixel that was 1. -/
theorem blitRows_spec (x0 y0 : Nat) (rows : List Byte) (hlen : rows.length ≤ 32) (acc : Blit)
    (px py : Nat) :
    ((blitRows acc x0 y0 rows).fb.pixel px py ≠ acc.fb.pixel px py ↔
        ∃ r c, spriteBit rows r c ∧ px % 64 = (x0 + c) % 64 ∧ py % 32 = (y0 + r) % 32) ∧
      ((blitRows acc x0 y0 rows).collision = true ↔
        acc.collision = true ∨
          ∃ r c, spriteBit rows r c ∧ acc.fb.pixel (x0 + c) (y0 + r) = true) := by
  induction rows generalizing acc y0 with
  | nil => simp [blitRows, spriteBit]
  | cons b rows ih =>
    simp only [List.length_cons] at hlen
    have mid := blitRow_spec acc x0 y0 b
    have below : ∀ r, r < rows.length → ¬ (y0 + (r + 1)) % 32 = y0 % 32 := fun r hr => by omega
    have shift : ∀ r, y0 + 1 + r = y0 + (r + 1) := fun r => by omega
    have untouched : ∀ x r, r < rows.length →
        (blitRow acc x0 y0 b).fb.pixel x (y0 + (r + 1)) = acc.fb.pixel x (y0 + (r + 1)) :=
      fun x r hr => by simp [(mid x _).1, hits, below r hr]
    simp only [blitRows]
    refine ⟨?_, ?_⟩
    · rw [exists_spriteBit_cons]
      have rest := (ih (y0 + 1) (by omega) (blitRow acc x0 y0 b)).1
      have first : ((blitRow acc x0 y0 b).fb.pixel px py ≠ acc.fb.pixel px py) ↔
          ∃ c < 8, b.getLsbD (7 - c) = true ∧ px % 64 = (x0 + c) % 64 ∧ py % 32 = (y0 + 0) % 32 := by
        rw [(mid px py).1, Nat.add_zero]
        exact (xor_ne_left_iff _ _).trans ((any_columns_iff _).trans (exists_congr fun c =>
          and_congr_right fun _ => (Bool.and_eq_true _ _).to_iff.trans
            (and_congr_right fun _ => decide_eq_true_iff)))
      simp only [shift] at rest
      have notBoth : (∃ c < 8, b.getLsbD (7 - c) = true ∧ px % 64 = (x0 + c) % 64 ∧
          py % 32 = (y0 + 0) % 32) → ¬ ∃ r c, spriteBit rows r c ∧ px % 64 = (x0 + c) % 64 ∧
            py % 32 = (y0 + (r + 1)) % 32 := by
        rintro ⟨c, _, _, _, hy⟩ ⟨r, d, ⟨hr, _⟩, _, hy'⟩
        exact below r hr (by simpa using hy'.symm.trans hy)
      rw [← first, ← rest] at notBoth ⊢
      revert notBoth
      cases (blitRows (blitRow acc x0 y0 b) x0 (y0 + 1) rows).fb.pixel px py <;>
        cases (blitRow acc x0 y0 b).fb.pixel px py <;> cases acc.fb.pixel px py <;> simp
    · rw [exists_spriteBit_cons, (ih (y0 + 1) (by omega) (blitRow acc x0 y0 b)).2,
        (mid px py).2, Bool.or_eq_true, any_columns_iff, or_assoc]
      refine or_congr_right (or_congr (exists_congr fun c => and_congr_right fun _ => by simp) ?_)
      refine exists_congr fun r => exists_congr fun c => and_congr_right fun h => ?_
      rw [shift, untouched _ r h.1]

end Sys2Proof.Machine
end

