-- ==== Sys2Proof/Laws/Memory.lean ====
section
/-! SUPPORT. Memory: a block read after a block write, every other byte untouched, and the canonical
form kept by every write (20_memory.md R44). -/

namespace Sys2Proof.Machine

/-! ### One byte -/

@[simp] theorem Memory.read_nil (a : Nat) : Memory.read [] a = Memory.resetByte a := rfl

theorem Memory.read_cons (c : Host.Cell) (m : Memory) (a : Nat) :
    Memory.read (c :: m) a = if c.1 = a then c.2 else Memory.read m a := rfl

/-- An address no cell lists reads as after reset. -/
theorem Memory.read_of_forall_ne {m : Memory} {a : Nat} (h : ∀ c ∈ m, c.1 ≠ a) :
    m.read a = Memory.resetByte a := by
  induction m with
  | nil => rfl
  | cons c m ih =>
    simp only [List.mem_cons, forall_eq_or_imp] at h
    simp [Memory.read_cons, h.1, ih h.2]

/-- Cells of other addresses in front do not matter. -/
theorem Memory.read_append_of_forall_ne {m n : Memory} {a : Nat} (h : ∀ c ∈ m, c.1 ≠ a) :
    Memory.read (m ++ n) a = n.read a := by
  induction m with
  | nil => rfl
  | cons c m ih =>
    simp only [List.mem_cons, forall_eq_or_imp] at h
    simp [Memory.read_cons, h.1, ih h.2]

/-- Cells of other addresses behind do not matter. -/
theorem Memory.read_append_right_of_forall_ne {m n : Memory} {a : Nat} (h : ∀ c ∈ n, c.1 ≠ a) :
    Memory.read (m ++ n) a = m.read a := by
  induction m with
  | nil => simpa using Memory.read_of_forall_ne h
  | cons c m ih => simp [Memory.read_cons, ih]

/-- Dropping cells of other addresses does not matter. -/
theorem Memory.read_filter {m : Memory} {p : Host.Cell → Bool} {a : Nat}
    (h : ∀ c ∈ m, c.1 = a → p c = true) : Memory.read (m.filter p) a = m.read a := by
  induction m with
  | nil => rfl
  | cons c m ih =>
    simp only [List.mem_cons, forall_eq_or_imp] at h
    by_cases hp : p c
    · simp [hp, Memory.read_cons, ih h.2]
    · have hne : c.1 ≠ a := fun he => hp (h.1 he)
      simp [hp, Memory.read_cons, hne, ih h.2]

/-! ### The cells of a block -/

/-- Every cell of a block lies in it. -/
theorem Memory.cells_range {a : Nat} {bs : List Byte} {c : Host.Cell}
    (h : c ∈ Memory.cells a bs) : a ≤ c.1 ∧ c.1 < a + bs.length := by
  induction bs generalizing a with
  | nil => simp [Memory.cells] at h
  | cons b bs ih =>
    simp only [Memory.cells] at h
    simp only [List.length_cons]
    split at h
    · have := ih h; omega
    · rcases List.mem_cons.1 h with rfl | h
      · exact ⟨Nat.le_refl _, by simp⟩
      · have := ih h; omega

/-- No cell of a block holds what its address reads as unlisted. -/
theorem Memory.cells_ne_resetByte {a : Nat} {bs : List Byte} {c : Host.Cell}
    (h : c ∈ Memory.cells a bs) : c.2 ≠ Memory.resetByte c.1 := by
  induction bs generalizing a with
  | nil => simp [Memory.cells] at h
  | cons b bs ih =>
    simp only [Memory.cells] at h
    split at h
    · exact ih h
    · rcases List.mem_cons.1 h with rfl | h
      · assumption
      · exact ih h

/-- The cells of a block rise. -/
theorem Memory.cells_pairwise (a : Nat) (bs : List Byte) :
    (Memory.cells a bs).Pairwise (fun c d => c.1 < d.1) := by
  induction bs generalizing a with
  | nil => exact List.Pairwise.nil
  | cons b bs ih =>
    simp only [Memory.cells]
    split
    · exact ih _
    · refine List.Pairwise.cons (fun c hc => ?_) (ih _)
      have := Memory.cells_range hc
      show a < c.1
      omega

/-- A byte of the block reads as stored. -/
theorem Memory.read_cells {a : Nat} {bs : List Byte} {k : Nat} (h : k < bs.length) :
    (Memory.cells a bs).read (a + k) = bs[k] := by
  induction bs generalizing a k with
  | nil => simp at h
  | cons b bs ih =>
    cases k with
    | zero =>
      simp only [Memory.cells]
      split
      · rename_i hb
        have hne : ∀ c ∈ Memory.cells (a + 1) bs, c.1 ≠ a := fun c hc => by
          have := Memory.cells_range hc; omega
        simpa [Memory.read_of_forall_ne hne] using hb.symm
      · simp [Memory.read_cons]
    | succ k =>
      have hk : k < bs.length := by simpa using h
      have he : a + (k + 1) = a + 1 + k := by omega
      simp only [Memory.cells]
      split
      · rw [he]; simpa using ih hk
      · have hne : a ≠ a + 1 + k := by omega
        rw [he, Memory.read_cons, if_neg hne]; simpa using ih hk

/-! ### Writing a block -/

/-- Every byte outside the block reads as before, of any memory. -/
theorem Memory.read_writeBlock_of_outside {m : Memory} {a c : Nat} {bs : List Byte}
    (h : c < a ∨ a + bs.length ≤ c) : (m.writeBlock a bs).read c = m.read c := by
  have hmid : ∀ d ∈ Memory.cells a bs, d.1 ≠ c := fun d hd => by
    have := Memory.cells_range hd; omega
  unfold Memory.writeBlock
  rcases h with h | h
  · have hhi : ∀ d ∈ m.filter (fun d => decide (a + bs.length ≤ d.1)), d.1 ≠ c := fun d hd => by
      have := (List.mem_filter.1 hd).2; simp at this; omega
    rw [Memory.read_append_right_of_forall_ne hhi, Memory.read_append_right_of_forall_ne hmid]
    exact Memory.read_filter fun d _ hd => by simp; omega
  · have hlo : ∀ d ∈ m.filter (fun d => decide (d.1 < a)), d.1 ≠ c := fun d hd => by
      have := (List.mem_filter.1 hd).2; simp at this; omega
    rw [List.append_assoc, Memory.read_append_of_forall_ne hlo,
      Memory.read_append_of_forall_ne hmid]
    exact Memory.read_filter fun d _ hd => by simp; omega

/-- Every byte of the block reads as stored, of any memory. -/
theorem Memory.read_writeBlock_of_lt {m : Memory} {a k : Nat} {bs : List Byte}
    (h : k < bs.length) : (m.writeBlock a bs).read (a + k) = bs[k] := by
  have hlo : ∀ d ∈ m.filter (fun d => decide (d.1 < a)), d.1 ≠ a + k := fun d hd => by
    have := (List.mem_filter.1 hd).2; simp at this; omega
  have hhi : ∀ d ∈ m.filter (fun d => decide (a + bs.length ≤ d.1)), d.1 ≠ a + k := fun d hd => by
    have := (List.mem_filter.1 hd).2; simp at this; omega
  unfold Memory.writeBlock
  rw [Memory.read_append_right_of_forall_ne hhi, Memory.read_append_of_forall_ne hlo,
    Memory.read_cells h]

/-- A block that lies in memory keeps the canonical form. -/
theorem Memory.wf_writeBlock {m : Memory} (hm : m.wf) {a : Nat} {bs : List Byte}
    (h : a + bs.length ≤ Config.memSize) : (m.writeBlock a bs).wf := by
  refine ⟨?_, fun c hc => ?_⟩
  · unfold Memory.writeBlock
    rw [List.pairwise_append, List.pairwise_append]
    refine ⟨⟨hm.1.filter _, Memory.cells_pairwise a bs, fun c hc d hd => ?_⟩, hm.1.filter _,
      fun c hc d hd => ?_⟩
    · have h1 := (List.mem_filter.1 hc).2; have h2 := Memory.cells_range hd
      simp at h1; omega
    · have h2 := (List.mem_filter.1 hd).2
      simp only [decide_eq_true_eq] at h2
      rcases List.mem_append.1 hc with hc | hc
      · have h1 := (List.mem_filter.1 hc).2; simp at h1; omega
      · have h1 := Memory.cells_range hc; omega
  · unfold Memory.writeBlock at hc
    rcases List.mem_append.1 hc with hc | hc
    · rcases List.mem_append.1 hc with hc | hc
      · exact hm.2 c (List.mem_filter.1 hc).1
      · have := Memory.cells_range hc
        exact ⟨by omega, Memory.cells_ne_resetByte hc⟩
    · exact hm.2 c (List.mem_filter.1 hc).1

/-- Reset memory is canonical. -/
theorem Memory.wf_reset : State.reset.mem.wf := by
  simp [State.reset, Memory.wf]

/-- Two canonical memories that read alike are the same list. -/
theorem Memory.ext_of_wf {m n : Memory} (hm : m.wf) (hn : n.wf) (h : ∀ a, m.read a = n.read a) :
    m = n := by
  induction m generalizing n with
  | nil =>
    cases n with
    | nil => rfl
    | cons d n =>
      exact absurd (by simpa [Memory.read_cons] using (h d.1).symm) (hn.2 d (by simp)).2
  | cons c m ih =>
    have tailWf : ∀ {e : Host.Cell} {l : Memory}, Memory.wf (e :: l) →
        Memory.wf l ∧ (∀ x ∈ l, e.1 < x.1) ∧ e.2 ≠ Memory.resetByte e.1 := fun {e l} hl =>
      have hp := List.pairwise_cons.1 hl.1
      ⟨⟨hp.2, fun x hx => hl.2 x (by simp [hx])⟩, hp.1, (hl.2 e (by simp)).2⟩
    cases n with
    | nil => exact absurd (by simpa [Memory.read_cons] using h c.1) (hm.2 c (by simp)).2
    | cons d n =>
      obtain ⟨hmw, hml, hmc⟩ := tailWf hm
      obtain ⟨hnw, hnl, hnc⟩ := tailWf hn
      have below : ∀ {e : Host.Cell} {l : Memory} {a : Nat}, (∀ x ∈ l, e.1 < x.1) → a < e.1 →
          Memory.read (e :: l) a = Memory.resetByte a := fun {e l a} hl ha =>
        Memory.read_of_forall_ne fun x hx => by
          rcases List.mem_cons.1 hx with rfl | hx
          · omega
          · have := hl x hx; omega
      have haddr : c.1 = d.1 := by
        rcases Nat.lt_trichotomy c.1 d.1 with hlt | heq | hgt
        · have := h c.1
          rw [below hnl hlt, Memory.read_cons, if_pos rfl] at this
          exact absurd this hmc
        · exact heq
        · have := h d.1
          rw [below hml hgt, Memory.read_cons, if_pos rfl] at this
          exact absurd this.symm hnc
      have hval : c.2 = d.2 := by
        simpa [Memory.read_cons, haddr] using h c.1
      have hrest : m = n := ih hmw hnw fun a => by
        by_cases ha : a = c.1
        · rw [Memory.read_of_forall_ne fun x hx => by have := hml x hx; omega,
            Memory.read_of_forall_ne fun x hx => by have := hnl x hx; omega]
        · have := h a
          rwa [Memory.read_cons, Memory.read_cons, if_neg (fun e => ha e.symm),
            if_neg (fun e => ha (haddr.trans e).symm)] at this
      rw [Prod.ext haddr hval, hrest]

/-! ### Reading a block -/

@[simp] theorem Memory.length_readBlock (m : Memory) (a n : Nat) : (m.readBlock a n).length = n := by
  simp [Memory.readBlock]

@[simp] theorem Memory.getElem_readBlock (m : Memory) (a n k : Nat) (h : k < (m.readBlock a n).length) :
    (m.readBlock a n)[k] = m.read (a + k) := by
  simp [Memory.readBlock]

/-! ### The register blocks of FX55 and FX65 -/

@[simp] theorem State.length_regBlock (s : State) (x : Reg) : (s.regBlock x).length = x.val + 1 := by
  simp [State.regBlock]

@[simp] theorem State.getElem_regBlock (s : State) (x : Reg) (k : Nat)
    (h : k < (s.regBlock x).length) :
    (s.regBlock x)[k] = s.v ⟨k, by simp at h; omega⟩ := by
  simp [State.regBlock, State.v]

/-- Register j after a block is written from register k on. -/
theorem getElem_writeRegBlock (regs : Vector Byte 16) (k : Nat) (bs : List Byte) (j : Nat)
    (hj : j < 16) :
    (writeRegBlock regs k bs)[j] =
      if h : k ≤ j ∧ j < k + bs.length then bs[j - k]'(by omega) else regs[j] := by
  induction bs generalizing regs k with
  | nil => simp [writeRegBlock]
  | cons b bs ih =>
    simp only [writeRegBlock, ih, List.length_cons]
    by_cases h1 : k + 1 ≤ j ∧ j < k + 1 + bs.length
    · have h2 : k ≤ j ∧ j < k + (bs.length + 1) := by omega
      have h3 : j - k = j - (k + 1) + 1 := by omega
      simp only [h1, h2, and_self, dite_true, h3, List.getElem_cons_succ]
    · simp only [h1, dite_false]
      by_cases hk : k = j
      · subst hk
        have h2 : k ≤ k ∧ k < k + (bs.length + 1) := by omega
        simp [h2]
      · have h2 : ¬ (k ≤ j ∧ j < k + (bs.length + 1)) := by omega
        simp [h2, hk]

@[simp] theorem length_decimalDigits (a : Byte) : (decimalDigits a).length = 3 := rfl

end Sys2Proof.Machine
end

