-- ==== Sys2Proof/Laws/State.lean ====
section
/-! SUPPORT. One lemma per field per update of the state, each true by `rfl`, so that no later proof
unfolds a record update; then what reading a register says after each update. -/

namespace Sys2Proof.Machine

variable (s : State)

/-! ### setMem -/

@[simp] theorem State.setMem_mem (m : Memory) : (s.setMem m).mem = m := rfl
@[simp] theorem State.setMem_regs (m : Memory) : (s.setMem m).regs = s.regs := rfl
@[simp] theorem State.setMem_i (m : Memory) : (s.setMem m).i = s.i := rfl
@[simp] theorem State.setMem_pc (m : Memory) : (s.setMem m).pc = s.pc := rfl
@[simp] theorem State.setMem_stack (m : Memory) : (s.setMem m).stack = s.stack := rfl
@[simp] theorem State.setMem_sp (m : Memory) : (s.setMem m).sp = s.sp := rfl
@[simp] theorem State.setMem_fb (m : Memory) : (s.setMem m).fb = s.fb := rfl
@[simp] theorem State.setMem_dt (m : Memory) : (s.setMem m).dt = s.dt := rfl
@[simp] theorem State.setMem_st (m : Memory) : (s.setMem m).st = s.st := rfl
@[simp] theorem State.setMem_keys (m : Memory) : (s.setMem m).keys = s.keys := rfl
@[simp] theorem State.setMem_kw (m : Memory) : (s.setMem m).kw = s.kw := rfl
@[simp] theorem State.setMem_kwReg (m : Memory) : (s.setMem m).kwReg = s.kwReg := rfl
@[simp] theorem State.setMem_draw (m : Memory) : (s.setMem m).draw = s.draw := rfl
@[simp] theorem State.setMem_sndEnd (m : Memory) : (s.setMem m).sndEnd = s.sndEnd := rfl
@[simp] theorem State.setMem_rndInputs (m : Memory) : (s.setMem m).rndInputs = s.rndInputs := rfl
@[simp] theorem State.setMem_rndCount (m : Memory) : (s.setMem m).rndCount = s.rndCount := rfl
@[simp] theorem State.setMem_v (m : Memory) (q : Reg) : (s.setMem m).v q = s.v q := rfl
@[simp] theorem State.setMem_key (m : Memory) (q : Key) : (s.setMem m).key q = s.key q := rfl

/-! ### setRegs -/

@[simp] theorem State.setRegs_mem (x : Vector Byte 16) : (s.setRegs x).mem = s.mem := rfl
@[simp] theorem State.setRegs_regs (x : Vector Byte 16) : (s.setRegs x).regs = x := rfl
@[simp] theorem State.setRegs_i (x : Vector Byte 16) : (s.setRegs x).i = s.i := rfl
@[simp] theorem State.setRegs_pc (x : Vector Byte 16) : (s.setRegs x).pc = s.pc := rfl
@[simp] theorem State.setRegs_stack (x : Vector Byte 16) : (s.setRegs x).stack = s.stack := rfl
@[simp] theorem State.setRegs_sp (x : Vector Byte 16) : (s.setRegs x).sp = s.sp := rfl
@[simp] theorem State.setRegs_fb (x : Vector Byte 16) : (s.setRegs x).fb = s.fb := rfl
@[simp] theorem State.setRegs_dt (x : Vector Byte 16) : (s.setRegs x).dt = s.dt := rfl
@[simp] theorem State.setRegs_st (x : Vector Byte 16) : (s.setRegs x).st = s.st := rfl
@[simp] theorem State.setRegs_keys (x : Vector Byte 16) : (s.setRegs x).keys = s.keys := rfl
@[simp] theorem State.setRegs_kw (x : Vector Byte 16) : (s.setRegs x).kw = s.kw := rfl
@[simp] theorem State.setRegs_kwReg (x : Vector Byte 16) : (s.setRegs x).kwReg = s.kwReg := rfl
@[simp] theorem State.setRegs_draw (x : Vector Byte 16) : (s.setRegs x).draw = s.draw := rfl
@[simp] theorem State.setRegs_sndEnd (x : Vector Byte 16) : (s.setRegs x).sndEnd = s.sndEnd := rfl
@[simp] theorem State.setRegs_rndInputs (x : Vector Byte 16) : (s.setRegs x).rndInputs = s.rndInputs := rfl
@[simp] theorem State.setRegs_rndCount (x : Vector Byte 16) : (s.setRegs x).rndCount = s.rndCount := rfl
@[simp] theorem State.setRegs_key (x : Vector Byte 16) (q : Key) : (s.setRegs x).key q = s.key q := rfl

/-! ### setI -/

@[simp] theorem State.setI_mem (w : Word) : (s.setI w).mem = s.mem := rfl
@[simp] theorem State.setI_regs (w : Word) : (s.setI w).regs = s.regs := rfl
@[simp] theorem State.setI_i (w : Word) : (s.setI w).i = w := rfl
@[simp] theorem State.setI_pc (w : Word) : (s.setI w).pc = s.pc := rfl
@[simp] theorem State.setI_stack (w : Word) : (s.setI w).stack = s.stack := rfl
@[simp] theorem State.setI_sp (w : Word) : (s.setI w).sp = s.sp := rfl
@[simp] theorem State.setI_fb (w : Word) : (s.setI w).fb = s.fb := rfl
@[simp] theorem State.setI_dt (w : Word) : (s.setI w).dt = s.dt := rfl
@[simp] theorem State.setI_st (w : Word) : (s.setI w).st = s.st := rfl
@[simp] theorem State.setI_keys (w : Word) : (s.setI w).keys = s.keys := rfl
@[simp] theorem State.setI_kw (w : Word) : (s.setI w).kw = s.kw := rfl
@[simp] theorem State.setI_kwReg (w : Word) : (s.setI w).kwReg = s.kwReg := rfl
@[simp] theorem State.setI_draw (w : Word) : (s.setI w).draw = s.draw := rfl
@[simp] theorem State.setI_sndEnd (w : Word) : (s.setI w).sndEnd = s.sndEnd := rfl
@[simp] theorem State.setI_rndInputs (w : Word) : (s.setI w).rndInputs = s.rndInputs := rfl
@[simp] theorem State.setI_rndCount (w : Word) : (s.setI w).rndCount = s.rndCount := rfl
@[simp] theorem State.setI_v (w : Word) (q : Reg) : (s.setI w).v q = s.v q := rfl
@[simp] theorem State.setI_key (w : Word) (q : Key) : (s.setI w).key q = s.key q := rfl

/-! ### setPc -/

@[simp] theorem State.setPc_mem (w : Word) : (s.setPc w).mem = s.mem := rfl
@[simp] theorem State.setPc_regs (w : Word) : (s.setPc w).regs = s.regs := rfl
@[simp] theorem State.setPc_i (w : Word) : (s.setPc w).i = s.i := rfl
@[simp] theorem State.setPc_pc (w : Word) : (s.setPc w).pc = w := rfl
@[simp] theorem State.setPc_stack (w : Word) : (s.setPc w).stack = s.stack := rfl
@[simp] theorem State.setPc_sp (w : Word) : (s.setPc w).sp = s.sp := rfl
@[simp] theorem State.setPc_fb (w : Word) : (s.setPc w).fb = s.fb := rfl
@[simp] theorem State.setPc_dt (w : Word) : (s.setPc w).dt = s.dt := rfl
@[simp] theorem State.setPc_st (w : Word) : (s.setPc w).st = s.st := rfl
@[simp] theorem State.setPc_keys (w : Word) : (s.setPc w).keys = s.keys := rfl
@[simp] theorem State.setPc_kw (w : Word) : (s.setPc w).kw = s.kw := rfl
@[simp] theorem State.setPc_kwReg (w : Word) : (s.setPc w).kwReg = s.kwReg := rfl
@[simp] theorem State.setPc_draw (w : Word) : (s.setPc w).draw = s.draw := rfl
@[simp] theorem State.setPc_sndEnd (w : Word) : (s.setPc w).sndEnd = s.sndEnd := rfl
@[simp] theorem State.setPc_rndInputs (w : Word) : (s.setPc w).rndInputs = s.rndInputs := rfl
@[simp] theorem State.setPc_rndCount (w : Word) : (s.setPc w).rndCount = s.rndCount := rfl
@[simp] theorem State.setPc_v (w : Word) (q : Reg) : (s.setPc w).v q = s.v q := rfl
@[simp] theorem State.setPc_key (w : Word) (q : Key) : (s.setPc w).key q = s.key q := rfl

/-! ### setStack -/

@[simp] theorem State.setStack_mem (k : Vector Word 16) : (s.setStack k).mem = s.mem := rfl
@[simp] theorem State.setStack_regs (k : Vector Word 16) : (s.setStack k).regs = s.regs := rfl
@[simp] theorem State.setStack_i (k : Vector Word 16) : (s.setStack k).i = s.i := rfl
@[simp] theorem State.setStack_pc (k : Vector Word 16) : (s.setStack k).pc = s.pc := rfl
@[simp] theorem State.setStack_stack (k : Vector Word 16) : (s.setStack k).stack = k := rfl
@[simp] theorem State.setStack_sp (k : Vector Word 16) : (s.setStack k).sp = s.sp := rfl
@[simp] theorem State.setStack_fb (k : Vector Word 16) : (s.setStack k).fb = s.fb := rfl
@[simp] theorem State.setStack_dt (k : Vector Word 16) : (s.setStack k).dt = s.dt := rfl
@[simp] theorem State.setStack_st (k : Vector Word 16) : (s.setStack k).st = s.st := rfl
@[simp] theorem State.setStack_keys (k : Vector Word 16) : (s.setStack k).keys = s.keys := rfl
@[simp] theorem State.setStack_kw (k : Vector Word 16) : (s.setStack k).kw = s.kw := rfl
@[simp] theorem State.setStack_kwReg (k : Vector Word 16) : (s.setStack k).kwReg = s.kwReg := rfl
@[simp] theorem State.setStack_draw (k : Vector Word 16) : (s.setStack k).draw = s.draw := rfl
@[simp] theorem State.setStack_sndEnd (k : Vector Word 16) : (s.setStack k).sndEnd = s.sndEnd := rfl
@[simp] theorem State.setStack_rndInputs (k : Vector Word 16) : (s.setStack k).rndInputs = s.rndInputs := rfl
@[simp] theorem State.setStack_rndCount (k : Vector Word 16) : (s.setStack k).rndCount = s.rndCount := rfl
@[simp] theorem State.setStack_v (k : Vector Word 16) (q : Reg) : (s.setStack k).v q = s.v q := rfl
@[simp] theorem State.setStack_key (k : Vector Word 16) (q : Key) : (s.setStack k).key q = s.key q := rfl

/-! ### setSp -/

@[simp] theorem State.setSp_mem (d : Fin 17) : (s.setSp d).mem = s.mem := rfl
@[simp] theorem State.setSp_regs (d : Fin 17) : (s.setSp d).regs = s.regs := rfl
@[simp] theorem State.setSp_i (d : Fin 17) : (s.setSp d).i = s.i := rfl
@[simp] theorem State.setSp_pc (d : Fin 17) : (s.setSp d).pc = s.pc := rfl
@[simp] theorem State.setSp_stack (d : Fin 17) : (s.setSp d).stack = s.stack := rfl
@[simp] theorem State.setSp_sp (d : Fin 17) : (s.setSp d).sp = d := rfl
@[simp] theorem State.setSp_fb (d : Fin 17) : (s.setSp d).fb = s.fb := rfl
@[simp] theorem State.setSp_dt (d : Fin 17) : (s.setSp d).dt = s.dt := rfl
@[simp] theorem State.setSp_st (d : Fin 17) : (s.setSp d).st = s.st := rfl
@[simp] theorem State.setSp_keys (d : Fin 17) : (s.setSp d).keys = s.keys := rfl
@[simp] theorem State.setSp_kw (d : Fin 17) : (s.setSp d).kw = s.kw := rfl
@[simp] theorem State.setSp_kwReg (d : Fin 17) : (s.setSp d).kwReg = s.kwReg := rfl
@[simp] theorem State.setSp_draw (d : Fin 17) : (s.setSp d).draw = s.draw := rfl
@[simp] theorem State.setSp_sndEnd (d : Fin 17) : (s.setSp d).sndEnd = s.sndEnd := rfl
@[simp] theorem State.setSp_rndInputs (d : Fin 17) : (s.setSp d).rndInputs = s.rndInputs := rfl
@[simp] theorem State.setSp_rndCount (d : Fin 17) : (s.setSp d).rndCount = s.rndCount := rfl
@[simp] theorem State.setSp_v (d : Fin 17) (q : Reg) : (s.setSp d).v q = s.v q := rfl
@[simp] theorem State.setSp_key (d : Fin 17) (q : Key) : (s.setSp d).key q = s.key q := rfl

/-! ### setFb -/

@[simp] theorem State.setFb_mem (f : FrameBuffer) : (s.setFb f).mem = s.mem := rfl
@[simp] theorem State.setFb_regs (f : FrameBuffer) : (s.setFb f).regs = s.regs := rfl
@[simp] theorem State.setFb_i (f : FrameBuffer) : (s.setFb f).i = s.i := rfl
@[simp] theorem State.setFb_pc (f : FrameBuffer) : (s.setFb f).pc = s.pc := rfl
@[simp] theorem State.setFb_stack (f : FrameBuffer) : (s.setFb f).stack = s.stack := rfl
@[simp] theorem State.setFb_sp (f : FrameBuffer) : (s.setFb f).sp = s.sp := rfl
@[simp] theorem State.setFb_fb (f : FrameBuffer) : (s.setFb f).fb = f := rfl
@[simp] theorem State.setFb_dt (f : FrameBuffer) : (s.setFb f).dt = s.dt := rfl
@[simp] theorem State.setFb_st (f : FrameBuffer) : (s.setFb f).st = s.st := rfl
@[simp] theorem State.setFb_keys (f : FrameBuffer) : (s.setFb f).keys = s.keys := rfl
@[simp] theorem State.setFb_kw (f : FrameBuffer) : (s.setFb f).kw = s.kw := rfl
@[simp] theorem State.setFb_kwReg (f : FrameBuffer) : (s.setFb f).kwReg = s.kwReg := rfl
@[simp] theorem State.setFb_draw (f : FrameBuffer) : (s.setFb f).draw = s.draw := rfl
@[simp] theorem State.setFb_sndEnd (f : FrameBuffer) : (s.setFb f).sndEnd = s.sndEnd := rfl
@[simp] theorem State.setFb_rndInputs (f : FrameBuffer) : (s.setFb f).rndInputs = s.rndInputs := rfl
@[simp] theorem State.setFb_rndCount (f : FrameBuffer) : (s.setFb f).rndCount = s.rndCount := rfl
@[simp] theorem State.setFb_v (f : FrameBuffer) (q : Reg) : (s.setFb f).v q = s.v q := rfl
@[simp] theorem State.setFb_key (f : FrameBuffer) (q : Key) : (s.setFb f).key q = s.key q := rfl

/-! ### setDt -/

@[simp] theorem State.setDt_mem (b : Byte) : (s.setDt b).mem = s.mem := rfl
@[simp] theorem State.setDt_regs (b : Byte) : (s.setDt b).regs = s.regs := rfl
@[simp] theorem State.setDt_i (b : Byte) : (s.setDt b).i = s.i := rfl
@[simp] theorem State.setDt_pc (b : Byte) : (s.setDt b).pc = s.pc := rfl
@[simp] theorem State.setDt_stack (b : Byte) : (s.setDt b).stack = s.stack := rfl
@[simp] theorem State.setDt_sp (b : Byte) : (s.setDt b).sp = s.sp := rfl
@[simp] theorem State.setDt_fb (b : Byte) : (s.setDt b).fb = s.fb := rfl
@[simp] theorem State.setDt_dt (b : Byte) : (s.setDt b).dt = b := rfl
@[simp] theorem State.setDt_st (b : Byte) : (s.setDt b).st = s.st := rfl
@[simp] theorem State.setDt_keys (b : Byte) : (s.setDt b).keys = s.keys := rfl
@[simp] theorem State.setDt_kw (b : Byte) : (s.setDt b).kw = s.kw := rfl
@[simp] theorem State.setDt_kwReg (b : Byte) : (s.setDt b).kwReg = s.kwReg := rfl
@[simp] theorem State.setDt_draw (b : Byte) : (s.setDt b).draw = s.draw := rfl
@[simp] theorem State.setDt_sndEnd (b : Byte) : (s.setDt b).sndEnd = s.sndEnd := rfl
@[simp] theorem State.setDt_rndInputs (b : Byte) : (s.setDt b).rndInputs = s.rndInputs := rfl
@[simp] theorem State.setDt_rndCount (b : Byte) : (s.setDt b).rndCount = s.rndCount := rfl
@[simp] theorem State.setDt_v (b : Byte) (q : Reg) : (s.setDt b).v q = s.v q := rfl
@[simp] theorem State.setDt_key (b : Byte) (q : Key) : (s.setDt b).key q = s.key q := rfl

/-! ### setSt -/

@[simp] theorem State.setSt_mem (b : Byte) : (s.setSt b).mem = s.mem := rfl
@[simp] theorem State.setSt_regs (b : Byte) : (s.setSt b).regs = s.regs := rfl
@[simp] theorem State.setSt_i (b : Byte) : (s.setSt b).i = s.i := rfl
@[simp] theorem State.setSt_pc (b : Byte) : (s.setSt b).pc = s.pc := rfl
@[simp] theorem State.setSt_stack (b : Byte) : (s.setSt b).stack = s.stack := rfl
@[simp] theorem State.setSt_sp (b : Byte) : (s.setSt b).sp = s.sp := rfl
@[simp] theorem State.setSt_fb (b : Byte) : (s.setSt b).fb = s.fb := rfl
@[simp] theorem State.setSt_dt (b : Byte) : (s.setSt b).dt = s.dt := rfl
@[simp] theorem State.setSt_st (b : Byte) : (s.setSt b).st = b := rfl
@[simp] theorem State.setSt_keys (b : Byte) : (s.setSt b).keys = s.keys := rfl
@[simp] theorem State.setSt_kw (b : Byte) : (s.setSt b).kw = s.kw := rfl
@[simp] theorem State.setSt_kwReg (b : Byte) : (s.setSt b).kwReg = s.kwReg := rfl
@[simp] theorem State.setSt_draw (b : Byte) : (s.setSt b).draw = s.draw := rfl
@[simp] theorem State.setSt_sndEnd (b : Byte) : (s.setSt b).sndEnd = s.sndEnd := rfl
@[simp] theorem State.setSt_rndInputs (b : Byte) : (s.setSt b).rndInputs = s.rndInputs := rfl
@[simp] theorem State.setSt_rndCount (b : Byte) : (s.setSt b).rndCount = s.rndCount := rfl
@[simp] theorem State.setSt_v (b : Byte) (q : Reg) : (s.setSt b).v q = s.v q := rfl
@[simp] theorem State.setSt_key (b : Byte) (q : Key) : (s.setSt b).key q = s.key q := rfl

/-! ### setKeys -/

@[simp] theorem State.setKeys_mem (k : Vector Bool 16) : (s.setKeys k).mem = s.mem := rfl
@[simp] theorem State.setKeys_regs (k : Vector Bool 16) : (s.setKeys k).regs = s.regs := rfl
@[simp] theorem State.setKeys_i (k : Vector Bool 16) : (s.setKeys k).i = s.i := rfl
@[simp] theorem State.setKeys_pc (k : Vector Bool 16) : (s.setKeys k).pc = s.pc := rfl
@[simp] theorem State.setKeys_stack (k : Vector Bool 16) : (s.setKeys k).stack = s.stack := rfl
@[simp] theorem State.setKeys_sp (k : Vector Bool 16) : (s.setKeys k).sp = s.sp := rfl
@[simp] theorem State.setKeys_fb (k : Vector Bool 16) : (s.setKeys k).fb = s.fb := rfl
@[simp] theorem State.setKeys_dt (k : Vector Bool 16) : (s.setKeys k).dt = s.dt := rfl
@[simp] theorem State.setKeys_st (k : Vector Bool 16) : (s.setKeys k).st = s.st := rfl
@[simp] theorem State.setKeys_keys (k : Vector Bool 16) : (s.setKeys k).keys = k := rfl
@[simp] theorem State.setKeys_kw (k : Vector Bool 16) : (s.setKeys k).kw = s.kw := rfl
@[simp] theorem State.setKeys_kwReg (k : Vector Bool 16) : (s.setKeys k).kwReg = s.kwReg := rfl
@[simp] theorem State.setKeys_draw (k : Vector Bool 16) : (s.setKeys k).draw = s.draw := rfl
@[simp] theorem State.setKeys_sndEnd (k : Vector Bool 16) : (s.setKeys k).sndEnd = s.sndEnd := rfl
@[simp] theorem State.setKeys_rndInputs (k : Vector Bool 16) : (s.setKeys k).rndInputs = s.rndInputs := rfl
@[simp] theorem State.setKeys_rndCount (k : Vector Bool 16) : (s.setKeys k).rndCount = s.rndCount := rfl
@[simp] theorem State.setKeys_v (k : Vector Bool 16) (q : Reg) : (s.setKeys k).v q = s.v q := rfl

/-! ### setKw -/

@[simp] theorem State.setKw_mem (b : Bool) : (s.setKw b).mem = s.mem := rfl
@[simp] theorem State.setKw_regs (b : Bool) : (s.setKw b).regs = s.regs := rfl
@[simp] theorem State.setKw_i (b : Bool) : (s.setKw b).i = s.i := rfl
@[simp] theorem State.setKw_pc (b : Bool) : (s.setKw b).pc = s.pc := rfl
@[simp] theorem State.setKw_stack (b : Bool) : (s.setKw b).stack = s.stack := rfl
@[simp] theorem State.setKw_sp (b : Bool) : (s.setKw b).sp = s.sp := rfl
@[simp] theorem State.setKw_fb (b : Bool) : (s.setKw b).fb = s.fb := rfl
@[simp] theorem State.setKw_dt (b : Bool) : (s.setKw b).dt = s.dt := rfl
@[simp] theorem State.setKw_st (b : Bool) : (s.setKw b).st = s.st := rfl
@[simp] theorem State.setKw_keys (b : Bool) : (s.setKw b).keys = s.keys := rfl
@[simp] theorem State.setKw_kw (b : Bool) : (s.setKw b).kw = b := rfl
@[simp] theorem State.setKw_kwReg (b : Bool) : (s.setKw b).kwReg = s.kwReg := rfl
@[simp] theorem State.setKw_draw (b : Bool) : (s.setKw b).draw = s.draw := rfl
@[simp] theorem State.setKw_sndEnd (b : Bool) : (s.setKw b).sndEnd = s.sndEnd := rfl
@[simp] theorem State.setKw_rndInputs (b : Bool) : (s.setKw b).rndInputs = s.rndInputs := rfl
@[simp] theorem State.setKw_rndCount (b : Bool) : (s.setKw b).rndCount = s.rndCount := rfl
@[simp] theorem State.setKw_v (b : Bool) (q : Reg) : (s.setKw b).v q = s.v q := rfl
@[simp] theorem State.setKw_key (b : Bool) (q : Key) : (s.setKw b).key q = s.key q := rfl

/-! ### setKwReg -/

@[simp] theorem State.setKwReg_mem (r : Reg) : (s.setKwReg r).mem = s.mem := rfl
@[simp] theorem State.setKwReg_regs (r : Reg) : (s.setKwReg r).regs = s.regs := rfl
@[simp] theorem State.setKwReg_i (r : Reg) : (s.setKwReg r).i = s.i := rfl
@[simp] theorem State.setKwReg_pc (r : Reg) : (s.setKwReg r).pc = s.pc := rfl
@[simp] theorem State.setKwReg_stack (r : Reg) : (s.setKwReg r).stack = s.stack := rfl
@[simp] theorem State.setKwReg_sp (r : Reg) : (s.setKwReg r).sp = s.sp := rfl
@[simp] theorem State.setKwReg_fb (r : Reg) : (s.setKwReg r).fb = s.fb := rfl
@[simp] theorem State.setKwReg_dt (r : Reg) : (s.setKwReg r).dt = s.dt := rfl
@[simp] theorem State.setKwReg_st (r : Reg) : (s.setKwReg r).st = s.st := rfl
@[simp] theorem State.setKwReg_keys (r : Reg) : (s.setKwReg r).keys = s.keys := rfl
@[simp] theorem State.setKwReg_kw (r : Reg) : (s.setKwReg r).kw = s.kw := rfl
@[simp] theorem State.setKwReg_kwReg (r : Reg) : (s.setKwReg r).kwReg = r := rfl
@[simp] theorem State.setKwReg_draw (r : Reg) : (s.setKwReg r).draw = s.draw := rfl
@[simp] theorem State.setKwReg_sndEnd (r : Reg) : (s.setKwReg r).sndEnd = s.sndEnd := rfl
@[simp] theorem State.setKwReg_rndInputs (r : Reg) : (s.setKwReg r).rndInputs = s.rndInputs := rfl
@[simp] theorem State.setKwReg_rndCount (r : Reg) : (s.setKwReg r).rndCount = s.rndCount := rfl
@[simp] theorem State.setKwReg_v (r : Reg) (q : Reg) : (s.setKwReg r).v q = s.v q := rfl
@[simp] theorem State.setKwReg_key (r : Reg) (q : Key) : (s.setKwReg r).key q = s.key q := rfl

/-! ### setDraw -/

@[simp] theorem State.setDraw_mem (b : Bool) : (s.setDraw b).mem = s.mem := rfl
@[simp] theorem State.setDraw_regs (b : Bool) : (s.setDraw b).regs = s.regs := rfl
@[simp] theorem State.setDraw_i (b : Bool) : (s.setDraw b).i = s.i := rfl
@[simp] theorem State.setDraw_pc (b : Bool) : (s.setDraw b).pc = s.pc := rfl
@[simp] theorem State.setDraw_stack (b : Bool) : (s.setDraw b).stack = s.stack := rfl
@[simp] theorem State.setDraw_sp (b : Bool) : (s.setDraw b).sp = s.sp := rfl
@[simp] theorem State.setDraw_fb (b : Bool) : (s.setDraw b).fb = s.fb := rfl
@[simp] theorem State.setDraw_dt (b : Bool) : (s.setDraw b).dt = s.dt := rfl
@[simp] theorem State.setDraw_st (b : Bool) : (s.setDraw b).st = s.st := rfl
@[simp] theorem State.setDraw_keys (b : Bool) : (s.setDraw b).keys = s.keys := rfl
@[simp] theorem State.setDraw_kw (b : Bool) : (s.setDraw b).kw = s.kw := rfl
@[simp] theorem State.setDraw_kwReg (b : Bool) : (s.setDraw b).kwReg = s.kwReg := rfl
@[simp] theorem State.setDraw_draw (b : Bool) : (s.setDraw b).draw = b := rfl
@[simp] theorem State.setDraw_sndEnd (b : Bool) : (s.setDraw b).sndEnd = s.sndEnd := rfl
@[simp] theorem State.setDraw_rndInputs (b : Bool) : (s.setDraw b).rndInputs = s.rndInputs := rfl
@[simp] theorem State.setDraw_rndCount (b : Bool) : (s.setDraw b).rndCount = s.rndCount := rfl
@[simp] theorem State.setDraw_v (b : Bool) (q : Reg) : (s.setDraw b).v q = s.v q := rfl
@[simp] theorem State.setDraw_key (b : Bool) (q : Key) : (s.setDraw b).key q = s.key q := rfl

/-! ### setSndEnd -/

@[simp] theorem State.setSndEnd_mem (b : Bool) : (s.setSndEnd b).mem = s.mem := rfl
@[simp] theorem State.setSndEnd_regs (b : Bool) : (s.setSndEnd b).regs = s.regs := rfl
@[simp] theorem State.setSndEnd_i (b : Bool) : (s.setSndEnd b).i = s.i := rfl
@[simp] theorem State.setSndEnd_pc (b : Bool) : (s.setSndEnd b).pc = s.pc := rfl
@[simp] theorem State.setSndEnd_stack (b : Bool) : (s.setSndEnd b).stack = s.stack := rfl
@[simp] theorem State.setSndEnd_sp (b : Bool) : (s.setSndEnd b).sp = s.sp := rfl
@[simp] theorem State.setSndEnd_fb (b : Bool) : (s.setSndEnd b).fb = s.fb := rfl
@[simp] theorem State.setSndEnd_dt (b : Bool) : (s.setSndEnd b).dt = s.dt := rfl
@[simp] theorem State.setSndEnd_st (b : Bool) : (s.setSndEnd b).st = s.st := rfl
@[simp] theorem State.setSndEnd_keys (b : Bool) : (s.setSndEnd b).keys = s.keys := rfl
@[simp] theorem State.setSndEnd_kw (b : Bool) : (s.setSndEnd b).kw = s.kw := rfl
@[simp] theorem State.setSndEnd_kwReg (b : Bool) : (s.setSndEnd b).kwReg = s.kwReg := rfl
@[simp] theorem State.setSndEnd_draw (b : Bool) : (s.setSndEnd b).draw = s.draw := rfl
@[simp] theorem State.setSndEnd_sndEnd (b : Bool) : (s.setSndEnd b).sndEnd = b := rfl
@[simp] theorem State.setSndEnd_rndInputs (b : Bool) : (s.setSndEnd b).rndInputs = s.rndInputs := rfl
@[simp] theorem State.setSndEnd_rndCount (b : Bool) : (s.setSndEnd b).rndCount = s.rndCount := rfl
@[simp] theorem State.setSndEnd_v (b : Bool) (q : Reg) : (s.setSndEnd b).v q = s.v q := rfl
@[simp] theorem State.setSndEnd_key (b : Bool) (q : Key) : (s.setSndEnd b).key q = s.key q := rfl

/-! ### setRndInputs -/

@[simp] theorem State.setRndInputs_mem (l : List Byte) : (s.setRndInputs l).mem = s.mem := rfl
@[simp] theorem State.setRndInputs_regs (l : List Byte) : (s.setRndInputs l).regs = s.regs := rfl
@[simp] theorem State.setRndInputs_i (l : List Byte) : (s.setRndInputs l).i = s.i := rfl
@[simp] theorem State.setRndInputs_pc (l : List Byte) : (s.setRndInputs l).pc = s.pc := rfl
@[simp] theorem State.setRndInputs_stack (l : List Byte) : (s.setRndInputs l).stack = s.stack := rfl
@[simp] theorem State.setRndInputs_sp (l : List Byte) : (s.setRndInputs l).sp = s.sp := rfl
@[simp] theorem State.setRndInputs_fb (l : List Byte) : (s.setRndInputs l).fb = s.fb := rfl
@[simp] theorem State.setRndInputs_dt (l : List Byte) : (s.setRndInputs l).dt = s.dt := rfl
@[simp] theorem State.setRndInputs_st (l : List Byte) : (s.setRndInputs l).st = s.st := rfl
@[simp] theorem State.setRndInputs_keys (l : List Byte) : (s.setRndInputs l).keys = s.keys := rfl
@[simp] theorem State.setRndInputs_kw (l : List Byte) : (s.setRndInputs l).kw = s.kw := rfl
@[simp] theorem State.setRndInputs_kwReg (l : List Byte) : (s.setRndInputs l).kwReg = s.kwReg := rfl
@[simp] theorem State.setRndInputs_draw (l : List Byte) : (s.setRndInputs l).draw = s.draw := rfl
@[simp] theorem State.setRndInputs_sndEnd (l : List Byte) : (s.setRndInputs l).sndEnd = s.sndEnd := rfl
@[simp] theorem State.setRndInputs_rndInputs (l : List Byte) : (s.setRndInputs l).rndInputs = l := rfl
@[simp] theorem State.setRndInputs_rndCount (l : List Byte) : (s.setRndInputs l).rndCount = s.rndCount := rfl
@[simp] theorem State.setRndInputs_v (l : List Byte) (q : Reg) : (s.setRndInputs l).v q = s.v q := rfl
@[simp] theorem State.setRndInputs_key (l : List Byte) (q : Key) : (s.setRndInputs l).key q = s.key q := rfl

/-! ### setRndCount -/

@[simp] theorem State.setRndCount_mem (n : Nat) : (s.setRndCount n).mem = s.mem := rfl
@[simp] theorem State.setRndCount_regs (n : Nat) : (s.setRndCount n).regs = s.regs := rfl
@[simp] theorem State.setRndCount_i (n : Nat) : (s.setRndCount n).i = s.i := rfl
@[simp] theorem State.setRndCount_pc (n : Nat) : (s.setRndCount n).pc = s.pc := rfl
@[simp] theorem State.setRndCount_stack (n : Nat) : (s.setRndCount n).stack = s.stack := rfl
@[simp] theorem State.setRndCount_sp (n : Nat) : (s.setRndCount n).sp = s.sp := rfl
@[simp] theorem State.setRndCount_fb (n : Nat) : (s.setRndCount n).fb = s.fb := rfl
@[simp] theorem State.setRndCount_dt (n : Nat) : (s.setRndCount n).dt = s.dt := rfl
@[simp] theorem State.setRndCount_st (n : Nat) : (s.setRndCount n).st = s.st := rfl
@[simp] theorem State.setRndCount_keys (n : Nat) : (s.setRndCount n).keys = s.keys := rfl
@[simp] theorem State.setRndCount_kw (n : Nat) : (s.setRndCount n).kw = s.kw := rfl
@[simp] theorem State.setRndCount_kwReg (n : Nat) : (s.setRndCount n).kwReg = s.kwReg := rfl
@[simp] theorem State.setRndCount_draw (n : Nat) : (s.setRndCount n).draw = s.draw := rfl
@[simp] theorem State.setRndCount_sndEnd (n : Nat) : (s.setRndCount n).sndEnd = s.sndEnd := rfl
@[simp] theorem State.setRndCount_rndInputs (n : Nat) : (s.setRndCount n).rndInputs = s.rndInputs := rfl
@[simp] theorem State.setRndCount_rndCount (n : Nat) : (s.setRndCount n).rndCount = n := rfl
@[simp] theorem State.setRndCount_v (n : Nat) (q : Reg) : (s.setRndCount n).v q = s.v q := rfl
@[simp] theorem State.setRndCount_key (n : Nat) (q : Key) : (s.setRndCount n).key q = s.key q := rfl

/-! ### setV -/

@[simp] theorem State.setV_mem (r : Reg) (b : Byte) : (s.setV r b).mem = s.mem := rfl
@[simp] theorem State.setV_i (r : Reg) (b : Byte) : (s.setV r b).i = s.i := rfl
@[simp] theorem State.setV_pc (r : Reg) (b : Byte) : (s.setV r b).pc = s.pc := rfl
@[simp] theorem State.setV_stack (r : Reg) (b : Byte) : (s.setV r b).stack = s.stack := rfl
@[simp] theorem State.setV_sp (r : Reg) (b : Byte) : (s.setV r b).sp = s.sp := rfl
@[simp] theorem State.setV_fb (r : Reg) (b : Byte) : (s.setV r b).fb = s.fb := rfl
@[simp] theorem State.setV_dt (r : Reg) (b : Byte) : (s.setV r b).dt = s.dt := rfl
@[simp] theorem State.setV_st (r : Reg) (b : Byte) : (s.setV r b).st = s.st := rfl
@[simp] theorem State.setV_keys (r : Reg) (b : Byte) : (s.setV r b).keys = s.keys := rfl
@[simp] theorem State.setV_kw (r : Reg) (b : Byte) : (s.setV r b).kw = s.kw := rfl
@[simp] theorem State.setV_kwReg (r : Reg) (b : Byte) : (s.setV r b).kwReg = s.kwReg := rfl
@[simp] theorem State.setV_draw (r : Reg) (b : Byte) : (s.setV r b).draw = s.draw := rfl
@[simp] theorem State.setV_sndEnd (r : Reg) (b : Byte) : (s.setV r b).sndEnd = s.sndEnd := rfl
@[simp] theorem State.setV_rndInputs (r : Reg) (b : Byte) : (s.setV r b).rndInputs = s.rndInputs :=
  rfl
@[simp] theorem State.setV_rndCount (r : Reg) (b : Byte) : (s.setV r b).rndCount = s.rndCount := rfl
@[simp] theorem State.setV_key (r : Reg) (b : Byte) (q : Key) : (s.setV r b).key q = s.key q := rfl

/-! ### setKey -/

@[simp] theorem State.setKey_mem (k : Key) (b : Bool) : (s.setKey k b).mem = s.mem := rfl
@[simp] theorem State.setKey_regs (k : Key) (b : Bool) : (s.setKey k b).regs = s.regs := rfl
@[simp] theorem State.setKey_i (k : Key) (b : Bool) : (s.setKey k b).i = s.i := rfl
@[simp] theorem State.setKey_pc (k : Key) (b : Bool) : (s.setKey k b).pc = s.pc := rfl
@[simp] theorem State.setKey_stack (k : Key) (b : Bool) : (s.setKey k b).stack = s.stack := rfl
@[simp] theorem State.setKey_sp (k : Key) (b : Bool) : (s.setKey k b).sp = s.sp := rfl
@[simp] theorem State.setKey_fb (k : Key) (b : Bool) : (s.setKey k b).fb = s.fb := rfl
@[simp] theorem State.setKey_dt (k : Key) (b : Bool) : (s.setKey k b).dt = s.dt := rfl
@[simp] theorem State.setKey_st (k : Key) (b : Bool) : (s.setKey k b).st = s.st := rfl
@[simp] theorem State.setKey_kw (k : Key) (b : Bool) : (s.setKey k b).kw = s.kw := rfl
@[simp] theorem State.setKey_kwReg (k : Key) (b : Bool) : (s.setKey k b).kwReg = s.kwReg := rfl
@[simp] theorem State.setKey_draw (k : Key) (b : Bool) : (s.setKey k b).draw = s.draw := rfl
@[simp] theorem State.setKey_sndEnd (k : Key) (b : Bool) : (s.setKey k b).sndEnd = s.sndEnd := rfl
@[simp] theorem State.setKey_rndInputs (k : Key) (b : Bool) : (s.setKey k b).rndInputs = s.rndInputs :=
  rfl
@[simp] theorem State.setKey_rndCount (k : Key) (b : Bool) : (s.setKey k b).rndCount = s.rndCount :=
  rfl
@[simp] theorem State.setKey_v (k : Key) (b : Bool) (q : Reg) : (s.setKey k b).v q = s.v q := rfl

/-! ### advance -/

@[simp] theorem State.advance_mem : s.advance.mem = s.mem := rfl
@[simp] theorem State.advance_regs : s.advance.regs = s.regs := rfl
@[simp] theorem State.advance_i : s.advance.i = s.i := rfl
@[simp] theorem State.advance_pc : s.advance.pc = s.pc + 2 := rfl
@[simp] theorem State.advance_stack : s.advance.stack = s.stack := rfl
@[simp] theorem State.advance_sp : s.advance.sp = s.sp := rfl
@[simp] theorem State.advance_fb : s.advance.fb = s.fb := rfl
@[simp] theorem State.advance_dt : s.advance.dt = s.dt := rfl
@[simp] theorem State.advance_st : s.advance.st = s.st := rfl
@[simp] theorem State.advance_keys : s.advance.keys = s.keys := rfl
@[simp] theorem State.advance_kw : s.advance.kw = s.kw := rfl
@[simp] theorem State.advance_kwReg : s.advance.kwReg = s.kwReg := rfl
@[simp] theorem State.advance_draw : s.advance.draw = s.draw := rfl
@[simp] theorem State.advance_sndEnd : s.advance.sndEnd = s.sndEnd := rfl
@[simp] theorem State.advance_rndInputs : s.advance.rndInputs = s.rndInputs := rfl
@[simp] theorem State.advance_rndCount : s.advance.rndCount = s.rndCount := rfl
@[simp] theorem State.advance_v (q : Reg) : s.advance.v q = s.v q := rfl
@[simp] theorem State.advance_key (q : Key) : s.advance.key q = s.key q := rfl

/-! ### skipIf -/

@[simp] theorem State.skipIf_mem (c : Bool) : (s.skipIf c).mem = s.mem := rfl
@[simp] theorem State.skipIf_regs (c : Bool) : (s.skipIf c).regs = s.regs := rfl
@[simp] theorem State.skipIf_i (c : Bool) : (s.skipIf c).i = s.i := rfl
@[simp] theorem State.skipIf_pc (c : Bool) : (s.skipIf c).pc = s.pc + if c then 4 else 2 := rfl
@[simp] theorem State.skipIf_stack (c : Bool) : (s.skipIf c).stack = s.stack := rfl
@[simp] theorem State.skipIf_sp (c : Bool) : (s.skipIf c).sp = s.sp := rfl
@[simp] theorem State.skipIf_fb (c : Bool) : (s.skipIf c).fb = s.fb := rfl
@[simp] theorem State.skipIf_dt (c : Bool) : (s.skipIf c).dt = s.dt := rfl
@[simp] theorem State.skipIf_st (c : Bool) : (s.skipIf c).st = s.st := rfl
@[simp] theorem State.skipIf_keys (c : Bool) : (s.skipIf c).keys = s.keys := rfl
@[simp] theorem State.skipIf_kw (c : Bool) : (s.skipIf c).kw = s.kw := rfl
@[simp] theorem State.skipIf_kwReg (c : Bool) : (s.skipIf c).kwReg = s.kwReg := rfl
@[simp] theorem State.skipIf_draw (c : Bool) : (s.skipIf c).draw = s.draw := rfl
@[simp] theorem State.skipIf_sndEnd (c : Bool) : (s.skipIf c).sndEnd = s.sndEnd := rfl
@[simp] theorem State.skipIf_rndInputs (c : Bool) : (s.skipIf c).rndInputs = s.rndInputs := rfl
@[simp] theorem State.skipIf_rndCount (c : Bool) : (s.skipIf c).rndCount = s.rndCount := rfl
@[simp] theorem State.skipIf_v (c : Bool) (q : Reg) : (s.skipIf c).v q = s.v q := rfl
@[simp] theorem State.skipIf_key (c : Bool) (q : Key) : (s.skipIf c).key q = s.key q := rfl

/-! ### clearDraw -/

@[simp] theorem State.clearDraw_mem : s.clearDraw.mem = s.mem := rfl
@[simp] theorem State.clearDraw_regs : s.clearDraw.regs = s.regs := rfl
@[simp] theorem State.clearDraw_i : s.clearDraw.i = s.i := rfl
@[simp] theorem State.clearDraw_pc : s.clearDraw.pc = s.pc := rfl
@[simp] theorem State.clearDraw_stack : s.clearDraw.stack = s.stack := rfl
@[simp] theorem State.clearDraw_sp : s.clearDraw.sp = s.sp := rfl
@[simp] theorem State.clearDraw_fb : s.clearDraw.fb = s.fb := rfl
@[simp] theorem State.clearDraw_dt : s.clearDraw.dt = s.dt := rfl
@[simp] theorem State.clearDraw_st : s.clearDraw.st = s.st := rfl
@[simp] theorem State.clearDraw_keys : s.clearDraw.keys = s.keys := rfl
@[simp] theorem State.clearDraw_kw : s.clearDraw.kw = s.kw := rfl
@[simp] theorem State.clearDraw_kwReg : s.clearDraw.kwReg = s.kwReg := rfl
@[simp] theorem State.clearDraw_draw : s.clearDraw.draw = false := rfl
@[simp] theorem State.clearDraw_sndEnd : s.clearDraw.sndEnd = s.sndEnd := rfl
@[simp] theorem State.clearDraw_rndInputs : s.clearDraw.rndInputs = s.rndInputs := rfl
@[simp] theorem State.clearDraw_rndCount : s.clearDraw.rndCount = s.rndCount := rfl
@[simp] theorem State.clearDraw_v (q : Reg) : s.clearDraw.v q = s.v q := rfl
@[simp] theorem State.clearDraw_key (q : Key) : s.clearDraw.key q = s.key q := rfl

/-! ### timerPhase -/

@[simp] theorem State.timerPhase_mem : s.timerPhase.mem = s.mem := rfl
@[simp] theorem State.timerPhase_regs : s.timerPhase.regs = s.regs := rfl
@[simp] theorem State.timerPhase_i : s.timerPhase.i = s.i := rfl
@[simp] theorem State.timerPhase_pc : s.timerPhase.pc = s.pc := rfl
@[simp] theorem State.timerPhase_stack : s.timerPhase.stack = s.stack := rfl
@[simp] theorem State.timerPhase_sp : s.timerPhase.sp = s.sp := rfl
@[simp] theorem State.timerPhase_fb : s.timerPhase.fb = s.fb := rfl
@[simp] theorem State.timerPhase_dt : s.timerPhase.dt = if s.dt ≠ 0 then s.dt - 1 else s.dt := rfl
@[simp] theorem State.timerPhase_st : s.timerPhase.st = if s.st ≠ 0 then s.st - 1 else s.st := rfl
@[simp] theorem State.timerPhase_keys : s.timerPhase.keys = s.keys := rfl
@[simp] theorem State.timerPhase_kw : s.timerPhase.kw = s.kw := rfl
@[simp] theorem State.timerPhase_kwReg : s.timerPhase.kwReg = s.kwReg := rfl
@[simp] theorem State.timerPhase_draw : s.timerPhase.draw = s.draw := rfl
@[simp] theorem State.timerPhase_sndEnd : s.timerPhase.sndEnd = (s.st == 1) := rfl
@[simp] theorem State.timerPhase_rndInputs : s.timerPhase.rndInputs = s.rndInputs := rfl
@[simp] theorem State.timerPhase_rndCount : s.timerPhase.rndCount = s.rndCount := rfl
@[simp] theorem State.timerPhase_v (q : Reg) : s.timerPhase.v q = s.v q := rfl
@[simp] theorem State.timerPhase_key (q : Key) : s.timerPhase.key q = s.key q := rfl

/-! ### writeFlagged -/

@[simp] theorem State.writeFlagged_mem (x : Reg) (b : Byte) (c : Bool) : (s.writeFlagged x b c).mem = s.mem :=
  rfl
@[simp] theorem State.writeFlagged_i (x : Reg) (b : Byte) (c : Bool) : (s.writeFlagged x b c).i = s.i :=
  rfl
@[simp] theorem State.writeFlagged_pc (x : Reg) (b : Byte) (c : Bool) : (s.writeFlagged x b c).pc = s.pc :=
  rfl
@[simp] theorem State.writeFlagged_stack (x : Reg) (b : Byte) (c : Bool) : (s.writeFlagged x b c).stack = s.stack :=
  rfl
@[simp] theorem State.writeFlagged_sp (x : Reg) (b : Byte) (c : Bool) : (s.writeFlagged x b c).sp = s.sp :=
  rfl
@[simp] theorem State.writeFlagged_fb (x : Reg) (b : Byte) (c : Bool) : (s.writeFlagged x b c).fb = s.fb :=
  rfl
@[simp] theorem State.writeFlagged_dt (x : Reg) (b : Byte) (c : Bool) : (s.writeFlagged x b c).dt = s.dt :=
  rfl
@[simp] theorem State.writeFlagged_st (x : Reg) (b : Byte) (c : Bool) : (s.writeFlagged x b c).st = s.st :=
  rfl
@[simp] theorem State.writeFlagged_keys (x : Reg) (b : Byte) (c : Bool) : (s.writeFlagged x b c).keys = s.keys :=
  rfl
@[simp] theorem State.writeFlagged_kw (x : Reg) (b : Byte) (c : Bool) : (s.writeFlagged x b c).kw = s.kw :=
  rfl
@[simp] theorem State.writeFlagged_kwReg (x : Reg) (b : Byte) (c : Bool) : (s.writeFlagged x b c).kwReg = s.kwReg :=
  rfl
@[simp] theorem State.writeFlagged_draw (x : Reg) (b : Byte) (c : Bool) : (s.writeFlagged x b c).draw = s.draw :=
  rfl
@[simp] theorem State.writeFlagged_sndEnd (x : Reg) (b : Byte) (c : Bool) : (s.writeFlagged x b c).sndEnd = s.sndEnd :=
  rfl
@[simp] theorem State.writeFlagged_rndInputs (x : Reg) (b : Byte) (c : Bool) : (s.writeFlagged x b c).rndInputs = s.rndInputs :=
  rfl
@[simp] theorem State.writeFlagged_rndCount (x : Reg) (b : Byte) (c : Bool) : (s.writeFlagged x b c).rndCount = s.rndCount :=
  rfl
@[simp] theorem State.writeFlagged_key (x : Reg) (b : Byte) (c : Bool) (q : Key) : (s.writeFlagged x b c).key q = s.key q := rfl

/-! ### clearScreen -/

@[simp] theorem State.clearScreen_mem (c : Bool) : (s.clearScreen c).mem = s.mem := rfl
@[simp] theorem State.clearScreen_regs (c : Bool) : (s.clearScreen c).regs = s.regs := rfl
@[simp] theorem State.clearScreen_i (c : Bool) : (s.clearScreen c).i = s.i := rfl
@[simp] theorem State.clearScreen_pc (c : Bool) : (s.clearScreen c).pc = s.pc := rfl
@[simp] theorem State.clearScreen_stack (c : Bool) : (s.clearScreen c).stack = s.stack := rfl
@[simp] theorem State.clearScreen_sp (c : Bool) : (s.clearScreen c).sp = s.sp := rfl
@[simp] theorem State.clearScreen_fb (c : Bool) : (s.clearScreen c).fb = Vector.replicate 32 0 :=
  rfl
@[simp] theorem State.clearScreen_dt (c : Bool) : (s.clearScreen c).dt = s.dt := rfl
@[simp] theorem State.clearScreen_st (c : Bool) : (s.clearScreen c).st = s.st := rfl
@[simp] theorem State.clearScreen_keys (c : Bool) : (s.clearScreen c).keys = s.keys := rfl
@[simp] theorem State.clearScreen_kw (c : Bool) : (s.clearScreen c).kw = s.kw := rfl
@[simp] theorem State.clearScreen_kwReg (c : Bool) : (s.clearScreen c).kwReg = s.kwReg := rfl
@[simp] theorem State.clearScreen_draw (c : Bool) : (s.clearScreen c).draw = if c then true else s.draw :=
  rfl
@[simp] theorem State.clearScreen_sndEnd (c : Bool) : (s.clearScreen c).sndEnd = s.sndEnd := rfl
@[simp] theorem State.clearScreen_rndInputs (c : Bool) : (s.clearScreen c).rndInputs = s.rndInputs :=
  rfl
@[simp] theorem State.clearScreen_rndCount (c : Bool) : (s.clearScreen c).rndCount = s.rndCount :=
  rfl
@[simp] theorem State.clearScreen_v (c : Bool) (q : Reg) : (s.clearScreen c).v q = s.v q := rfl
@[simp] theorem State.clearScreen_key (c : Bool) (q : Key) : (s.clearScreen c).key q = s.key q := rfl

/-! ### Reading a register or a key after a write of one -/

/-- A write of a register changes that register only. -/
theorem State.v_setV (r q : Reg) (b : Byte) : (s.setV r b).v q = if q = r then b else s.v q := by
  unfold State.v State.setV
  simp only [Vector.getElem_set, Fin.ext_iff, eq_comm]

@[simp] theorem State.v_setV_self (r : Reg) (b : Byte) : (s.setV r b).v r = b := by
  simp [State.v_setV]

theorem State.v_setV_of_ne {r q : Reg} (b : Byte) (h : q ≠ r) : (s.setV r b).v q = s.v q := by
  simp [State.v_setV, h]

/-- The flag is written after the result: it is what VF holds, whichever register the result goes to
(10_state.md R12). -/
theorem State.v_writeFlagged (x q : Reg) (b : Byte) (c : Bool) :
    (s.writeFlagged x b c).v q = if q = vf then flagByte c else if q = x then b else s.v q := by
  simp only [State.writeFlagged, State.v_setV]

/-- A write of a key flag changes that flag only. -/
theorem State.key_setKey (k q : Key) (b : Bool) :
    (s.setKey k b).key q = if q = k then b else s.key q := by
  unfold State.key State.setKey
  simp only [State.setKeys_keys, Vector.getElem_set, Fin.ext_iff, eq_comm]

/-! ### The random input -/

@[simp] theorem State.rndDrawn_v (q : Reg) : s.rndDrawn.v q = s.v q := by
  unfold State.rndDrawn; split <;> rfl

@[simp] theorem State.rndDrawn_mem : s.rndDrawn.mem = s.mem := by
  unfold State.rndDrawn; split <;> rfl

@[simp] theorem State.rndDrawn_regs : s.rndDrawn.regs = s.regs := by
  unfold State.rndDrawn; split <;> rfl

@[simp] theorem State.rndDrawn_i : s.rndDrawn.i = s.i := by
  unfold State.rndDrawn; split <;> rfl

@[simp] theorem State.rndDrawn_pc : s.rndDrawn.pc = s.pc := by
  unfold State.rndDrawn; split <;> rfl

@[simp] theorem State.rndDrawn_stack : s.rndDrawn.stack = s.stack := by
  unfold State.rndDrawn; split <;> rfl

@[simp] theorem State.rndDrawn_sp : s.rndDrawn.sp = s.sp := by
  unfold State.rndDrawn; split <;> rfl

@[simp] theorem State.rndDrawn_fb : s.rndDrawn.fb = s.fb := by
  unfold State.rndDrawn; split <;> rfl

@[simp] theorem State.rndDrawn_dt : s.rndDrawn.dt = s.dt := by
  unfold State.rndDrawn; split <;> rfl

@[simp] theorem State.rndDrawn_st : s.rndDrawn.st = s.st := by
  unfold State.rndDrawn; split <;> rfl

@[simp] theorem State.rndDrawn_keys : s.rndDrawn.keys = s.keys := by
  unfold State.rndDrawn; split <;> rfl

@[simp] theorem State.rndDrawn_kw : s.rndDrawn.kw = s.kw := by
  unfold State.rndDrawn; split <;> rfl

@[simp] theorem State.rndDrawn_kwReg : s.rndDrawn.kwReg = s.kwReg := by
  unfold State.rndDrawn; split <;> rfl

@[simp] theorem State.rndDrawn_draw : s.rndDrawn.draw = s.draw := by
  unfold State.rndDrawn; split <;> rfl

@[simp] theorem State.rndDrawn_sndEnd : s.rndDrawn.sndEnd = s.sndEnd := by
  unfold State.rndDrawn; split <;> rfl

@[simp] theorem State.rndDrawn_key (q : Key) : s.rndDrawn.key q = s.key q := by
  unfold State.rndDrawn; split <;> rfl
/-- While the host's byte is listed, RND samples it and uses it up. -/
theorem State.rnd_of_cons {r : Byte} {rest : List Byte} (h : s.rndInputs = r :: rest) :
    s.rndByte = r ∧ s.rndDrawn = s.setRndInputs rest := by
  simp [State.rndByte, State.rndDrawn, h]

/-- Where none is listed, RND samples a free byte. -/
theorem State.rnd_of_nil (h : s.rndInputs = []) :
    s.rndByte = Config.rnd s.rndCount ∧ s.rndDrawn = s.setRndCount (s.rndCount + 1) := by
  simp [State.rndByte, State.rndDrawn, h]

end Sys2Proof.Machine
end

