-- ==== Sys2Proof/Laws/Ops.lean ====
section
/-! SUPPORT. For each shared operation, once, everything it can do: when it answers a next state, when a
fault, and that it never refuses.
Later proofs cite these and do not unfold the operations. -/

namespace Sys2Proof.Machine

variable {s t : State} {f : Fault} {k : Host.Outcome State Fault Refusal}

@[simp] theorem raise_ne_next : raise f ≠ .next t := by simp [raise]

@[simp] theorem raise_eq_fault (g : Fault) : raise f = .fault g ↔ f = g := by simp [raise]

/-! ### Range and protection checks (20_memory.md R45, R46) -/

theorem requireInRange_eq_next {kind : RangeKind} {last : Nat} :
    requireInRange kind last k = .next t ↔ last ≤ 0xFFF ∧ k = .next t := by
  unfold requireInRange; split <;> rename_i h
  · simp; omega
  · simp; omega

theorem requireInRange_eq_fault {kind : RangeKind} {last : Nat} :
    requireInRange kind last k = .fault f ↔
      (0xFFF < last ∧ f = .outOfRange kind last) ∨ (last ≤ 0xFFF ∧ k = .fault f) := by
  unfold requireInRange; split <;> rename_i h
  · have h' : ¬ last ≤ 0xFFF := by omega
    simp [h, eq_comm (a := f)]
  · have h' : last ≤ 0xFFF := by omega
    simp [h, h']

theorem requireWritable_eq_next {low : Bool} {base : Nat} :
    requireWritable low base k = .next t ↔ (low = true ∨ 0x200 ≤ base) ∧ k = .next t := by
  unfold requireWritable
  cases low <;> by_cases h : base < 0x200
  · simp [h, Nat.not_le.2 h]
  · simp [h, Nat.not_lt.1 h]
  · simp
  · simp

theorem requireWritable_eq_fault {low : Bool} {base : Nat} :
    requireWritable low base k = .fault f ↔
      (low = false ∧ base < 0x200 ∧ f = .outOfRange .memProtect base) ∨
        ((low = true ∨ 0x200 ≤ base) ∧ k = .fault f) := by
  unfold requireWritable
  cases low <;> by_cases h : base < 0x200
  · simp [h, Nat.not_le.2 h, eq_comm (a := f)]
  · simp [h, Nat.not_lt.1 h]
  · simp
  · simp

theorem requireStorable_eq_next {low : Bool} {base last : Nat} :
    requireStorable low base last k = .next t ↔
      last ≤ 0xFFF ∧ (low = true ∨ 0x200 ≤ base) ∧ k = .next t := by
  unfold requireStorable
  rw [requireInRange_eq_next, requireWritable_eq_next]

/-- The two checks of a store in their order: MEM_WRITE before MEM_PROTECT (60_exceptions.md R195). -/
theorem requireStorable_eq_fault {low : Bool} {base last : Nat} :
    requireStorable low base last k = .fault f ↔
      (0xFFF < last ∧ f = .outOfRange .memWrite last) ∨
        (last ≤ 0xFFF ∧ ((low = false ∧ base < 0x200 ∧ f = .outOfRange .memProtect base) ∨
          ((low = true ∨ 0x200 ≤ base) ∧ k = .fault f))) := by
  unfold requireStorable
  rw [requireInRange_eq_fault, requireWritable_eq_fault]

/-! ### Index operands -/

theorem requireIndex_of_le {kind : RangeKind} {b : Byte}
    {c : Fin 16 → Host.Outcome State Fault Refusal} (n : Fin 16) (h : n.val = b.toNat) :
    requireIndex kind b c = c n := by
  have hb : b.toNat < 16 := h ▸ n.isLt
  have hn : (⟨b.toNat, hb⟩ : Fin 16) = n := Fin.ext h.symm
  simp [requireIndex, hb, hn]

theorem requireIndex_of_gt {kind : RangeKind} {b : Byte}
    {c : Fin 16 → Host.Outcome State Fault Refusal} (h : 15 < b.toNat) :
    requireIndex kind b c = .fault (.outOfRange kind b.toNat) := by
  have hb : ¬ b.toNat < 16 := by omega
  simp [requireIndex, hb, raise]

theorem requireIndex_eq_next {kind : RangeKind} {b : Byte}
    {c : Fin 16 → Host.Outcome State Fault Refusal} :
    requireIndex kind b c = .next t ↔ ∃ n : Fin 16, n.val = b.toNat ∧ c n = .next t := by
  constructor
  · intro h
    by_cases hb : 15 < b.toNat
    · simp [requireIndex_of_gt hb] at h
    · refine ⟨⟨b.toNat, by omega⟩, rfl, ?_⟩
      rwa [requireIndex_of_le ⟨b.toNat, by omega⟩ rfl] at h
  · rintro ⟨n, hn, h⟩
    rwa [requireIndex_of_le n hn]

/-! ### The call stack (10_state.md R16) -/

theorem State.push_of_full {ret : Word} {g : Fault} {c : State → Host.Outcome State Fault Refusal}
    (h : s.sp.val = 16) : s.push ret g c = .fault g := by
  simp [State.push, h, raise]

theorem State.push_of_lt {ret : Word} {g : Fault} {c : State → Host.Outcome State Fault Refusal}
    (h : s.sp.val < 16) :
    s.push ret g c =
      c ((s.setStack (s.stack.set s.sp.val ret)).setSp ⟨s.sp.val + 1, by omega⟩) := by
  simp [State.push, h]

theorem State.pop_of_empty {c : Word → State → Host.Outcome State Fault Refusal}
    (h : s.sp.val = 0) : s.pop c = .fault (.outOfRange .stack 0) := by
  simp [State.pop, h, raise]

theorem State.pop_of_pos {c : Word → State → Host.Outcome State Fault Refusal}
    (h : 0 < s.sp.val) :
    s.pop c =
      c (s.stack[s.sp.val - 1]'(by omega)) (s.setSp ⟨s.sp.val - 1, by omega⟩) := by
  simp [State.pop, h]

/-! ### The instructions built over them -/

theorem execRet_eq_next :
    execRet s = .next t ↔ ∃ h : 0 < s.sp.val,
      t = (s.setSp ⟨s.sp.val - 1, by omega⟩).setPc (s.stack[s.sp.val - 1]'(by omega)) := by
  unfold execRet
  by_cases h : 0 < s.sp.val
  · simp [State.pop_of_pos h, h, eq_comm]
  · simp [State.pop_of_empty (by omega : s.sp.val = 0), h]

theorem execCall_eq_next {nnn : Imm12} :
    execCall nnn s = .next t ↔ ∃ h : s.sp.val < 16,
      t = ((s.setStack (s.stack.set s.sp.val (s.pc + 2))).setSp ⟨s.sp.val + 1, by omega⟩).setPc
        (zextNNN nnn) := by
  unfold execCall
  by_cases h : s.sp.val < 16
  · simp [State.push_of_lt h, h, eq_comm]
  · simp [State.push_of_full (by omega : s.sp.val = 16), h]

theorem execSkp_eq_next {x : Reg} :
    execSkp x s = .next t ↔ ∃ k : Key, k.val = (s.v x).toNat ∧
      t = (s.setKey k false).skipIf (s.key k) := by
  simp [execSkp, requireIndex_eq_next, eq_comm (a := t)]

theorem execSknp_eq_next {x : Reg} :
    execSknp x s = .next t ↔ ∃ k : Key, k.val = (s.v x).toNat ∧
      t = (s.setKey k false).skipIf (!s.key k) := by
  simp [execSknp, requireIndex_eq_next, eq_comm (a := t)]

theorem execLdF_eq_next {x : Reg} :
    execLdF x s = .next t ↔ ∃ d : Fin 16, d.val = (s.v x).toNat ∧
      t = (s.setI (glyphAddr d)).advance := by
  simp [execLdF, requireIndex_eq_next, eq_comm (a := t)]

theorem storeDigits_eq_next {low : Bool} {x : Reg} :
    storeDigits low x s = .next t ↔ s.addr 2 ≤ 0xFFF ∧ (low = true ∨ 0x200 ≤ s.addr 0) ∧
      t = (s.setMem (s.mem.writeBlock (s.addr 0) (decimalDigits (s.v x)))).advance := by
  unfold storeDigits
  rw [requireStorable_eq_next, Host.Outcome.next.injEq, eq_comm (a := t)]

theorem execLdB_eq_next {x : Reg} :
    execLdB x s = .next t ↔ s.addr 2 ≤ 0xFFF ∧ 0x200 ≤ s.addr 0 ∧
      t = (s.setMem (s.mem.writeBlock (s.addr 0) (decimalDigits (s.v x)))).advance := by
  simp [execLdB, storeDigits_eq_next, Config.lowMemWritable]

theorem dumpRegs_eq_next {low : Bool} {x : Reg} :
    dumpRegs low x s = .next t ↔ s.addr x.val ≤ 0xFFF ∧ (low = true ∨ 0x200 ≤ s.addr 0) ∧
      t = (s.setMem (s.mem.writeBlock (s.addr 0) (s.regBlock x))).advance := by
  unfold dumpRegs
  rw [requireStorable_eq_next, Host.Outcome.next.injEq, eq_comm (a := t)]

theorem execStoreRegs_eq_next {x : Reg} :
    execStoreRegs x s = .next t ↔ s.addr x.val ≤ 0xFFF ∧ 0x200 ≤ s.addr 0 ∧
      t = (s.setMem (s.mem.writeBlock (s.addr 0) (s.regBlock x))).advance := by
  simp [execStoreRegs, dumpRegs_eq_next, Config.lowMemWritable]

theorem execLoadRegs_eq_next {x : Reg} :
    execLoadRegs x s = .next t ↔ s.addr x.val ≤ 0xFFF ∧
      t = (s.setRegs
        (writeRegBlock s.regs 0 (s.mem.readBlock (s.addr 0) (x.val + 1)))).advance := by
  unfold execLoadRegs
  rw [requireInRange_eq_next, Host.Outcome.next.injEq, eq_comm (a := t)]

/-- A draw reads its N bytes only where N ≥ 1; with N = 0 the list of rows is empty. -/
theorem execDrw_eq_next {x y : Reg} {n : Nibble} :
    execDrw x y n s = .next t ↔ (n.toNat = 0 ∨ s.addr (n.toNat - 1) ≤ 0xFFF) ∧
      t = (s.drawSprite (s.v x).toNat (s.v y).toNat
        (s.mem.readBlock (s.addr 0) n.toNat)).advance := by
  unfold execDrw
  by_cases h : n.toNat = 0
  · simp [h, Memory.readBlock, eq_comm]
  · simp only [h, if_false, requireInRange_eq_next, Host.Outcome.next.injEq, false_or]
    rw [eq_comm (a := t)]

/-! ### A draw leaves everything but FB, VF and DRAW -/

/-- What a draw writes. -/
theorem State.drawSprite_eq (x0 y0 : Nat) (rows : List Byte) :
    s.drawSprite x0 y0 rows =
      ((s.setFb (blitRows ⟨s.fb, false⟩ x0 y0 rows).fb).setV vf
        (flagByte (blitRows ⟨s.fb, false⟩ x0 y0 rows).collision)).setDraw true := rfl

/-! ### The phases of a step -/

theorem finishStep_eq_next {o : Host.Outcome State Fault Refusal} :
    finishStep o = .next t ↔ ∃ u, o = .next u ∧ t = u.timerPhase := by
  cases o <;> simp [finishStep, eq_comm]

theorem finishStep_eq_fault {o : Host.Outcome State Fault Refusal} :
    finishStep o = .fault f ↔ o = .fault f := by
  cases o <;> simp [finishStep]

/-- What an instruction can be at PC, and the errors of fetching and decoding. -/
theorem State.fetchDecode_eq_ok {i : Instr} :
    s.fetchDecode = .ok i ↔ ∃ op, s.fetch = .ok op ∧ decodeWord op = .ok i := by
  unfold State.fetchDecode
  cases h : s.fetch with
  | error f => simp
  | ok op => cases hd : decodeWord op <;> simp [hd]

/-- Where PC is a fetch address the word is the two bytes there, the lower address first. -/
theorem State.fetch_eq_ok {op : Word} :
    s.fetch = .ok op ↔ s.pc.toNat ≤ 0xFFE ∧
      op = wordOfBytes (s.mem.read s.pc.toNat) (s.mem.read (s.pc.toNat + 1)) := by
  unfold State.fetch
  split <;> rename_i h
  · have : ¬ s.pc.toNat ≤ 0xFFE := by omega
    simp [this]
  · have : s.pc.toNat ≤ 0xFFE := by omega
    simp [this, eq_comm]

/-- Everything a step that answers a next state can have done. -/
theorem step_eq_next_cases (h : step s = .next t) :
    (s.kw = true ∧ t = s) ∨
      (s.kw = false ∧ ∃ i u, s.fetchDecode = .ok i ∧ exec i s.clearDraw = .next u ∧
        t = u.timerPhase) := by
  unfold step State.blocked at h
  split at h
  · rename_i hk
    exact .inl ⟨hk, by simpa using h.symm⟩
  · rename_i hk
    refine .inr ⟨by simpa using hk, ?_⟩
    split at h
    · simp at h
    · rename_i i hi
      obtain ⟨u, hu, ht⟩ := finishStep_eq_next.1 h
      exact ⟨i, u, hi, hu, ht⟩

/-- What an operation of the host leaves, by what it was. -/
theorem performStep_cases (r : Byte) :
    (performStep r s).2 = s ∨ ∃ t, step (s.setRndInputs [r]) = .next t ∧ s.kw = false ∧
      performStep r s = (.ok, t.setRndInputs s.rndInputs) := by
  unfold performStep State.blocked
  split
  · exact .inl rfl
  · rename_i hk
    split
    · rename_i t ht
      exact .inr ⟨t, ht, by simpa using hk, rfl⟩
    · exact .inl rfl
    · exact .inl rfl

end Sys2Proof.Machine
end

