-- ==== Sys2Proof/Laws/PerInstr.lean ====
section
/-! SUPPORT. Facts about every instruction as syntax, one lemma per constructor. -/

namespace Sys2Proof.Laws.FamilyField

/-- The family nibble of an instruction's row in 30_encoding.md R65 (the first nibble of its
pattern). -/
def family : Instr → BitVec 4
  | .sys _ | .cls | .ret => 0x0#4
  | .jp _ => 0x1#4
  | .call _ => 0x2#4
  | .seByte _ _ => 0x3#4
  | .sneByte _ _ => 0x4#4
  | .seReg _ _ => 0x5#4
  | .ldByte _ _ => 0x6#4
  | .addByte _ _ => 0x7#4
  | .ldReg _ _ | .orReg _ _ | .andReg _ _ | .xorReg _ _ | .addReg _ _ | .subReg _ _ | .shr _ _
  | .subn _ _ | .shl _ _ => 0x8#4
  | .sneReg _ _ => 0x9#4
  | .ldI _ => 0xA#4
  | .jpV0 _ => 0xB#4
  | .rnd _ _ => 0xC#4
  | .drw _ _ _ => 0xD#4
  | .skp _ | .sknp _ => 0xE#4
  | .ldVxDt _ | .ldVxK _ | .ldDtVx _ | .ldStVx _ | .addI _ | .ldF _ | .ldB _ | .storeRegs _
  | .loadRegs _ => 0xF#4

/-- The word of an instruction carries its row's family in the top nibble (30_encoding.md R61, R64). -/
def Statement (i : Instr) : Prop := fieldF (encode i) = family i

theorem sys (nnn : Imm12) : Statement (.sys nnn) := (fields_wordNNN (by decide) nnn).1
theorem cls : Statement .cls := by unfold Statement; decide
theorem ret : Statement .ret := by unfold Statement; decide
theorem jp (nnn : Imm12) : Statement (.jp nnn) := (fields_wordNNN (by decide) nnn).1
theorem call (nnn : Imm12) : Statement (.call nnn) := (fields_wordNNN (by decide) nnn).1
theorem seByte (x : Reg) (kk : Byte) : Statement (.seByte x kk) :=
  (fields_wordXKK (by decide) x kk).1
theorem sneByte (x : Reg) (kk : Byte) : Statement (.sneByte x kk) :=
  (fields_wordXKK (by decide) x kk).1
theorem seReg (x y : Reg) : Statement (.seReg x y) := (fields_wordXYN (by decide) x y _).1
theorem ldByte (x : Reg) (kk : Byte) : Statement (.ldByte x kk) :=
  (fields_wordXKK (by decide) x kk).1
theorem addByte (x : Reg) (kk : Byte) : Statement (.addByte x kk) :=
  (fields_wordXKK (by decide) x kk).1
theorem ldReg (x y : Reg) : Statement (.ldReg x y) := (fields_wordXYN (by decide) x y _).1
theorem orReg (x y : Reg) : Statement (.orReg x y) := (fields_wordXYN (by decide) x y _).1
theorem andReg (x y : Reg) : Statement (.andReg x y) := (fields_wordXYN (by decide) x y _).1
theorem xorReg (x y : Reg) : Statement (.xorReg x y) := (fields_wordXYN (by decide) x y _).1
theorem addReg (x y : Reg) : Statement (.addReg x y) := (fields_wordXYN (by decide) x y _).1
theorem subReg (x y : Reg) : Statement (.subReg x y) := (fields_wordXYN (by decide) x y _).1
theorem shr (x y : Reg) : Statement (.shr x y) := (fields_wordXYN (by decide) x y _).1
theorem subn (x y : Reg) : Statement (.subn x y) := (fields_wordXYN (by decide) x y _).1
theorem shl (x y : Reg) : Statement (.shl x y) := (fields_wordXYN (by decide) x y _).1
theorem sneReg (x y : Reg) : Statement (.sneReg x y) := (fields_wordXYN (by decide) x y _).1
theorem ldI (nnn : Imm12) : Statement (.ldI nnn) := (fields_wordNNN (by decide) nnn).1
theorem jpV0 (nnn : Imm12) : Statement (.jpV0 nnn) := (fields_wordNNN (by decide) nnn).1
theorem rnd (x : Reg) (kk : Byte) : Statement (.rnd x kk) := (fields_wordXKK (by decide) x kk).1
theorem drw (x y : Reg) (n : Nibble) : Statement (.drw x y n) := (fields_wordXYN (by decide) x y n).1
theorem skp (x : Reg) : Statement (.skp x) := (fields_wordXKK (by decide) x _).1
theorem sknp (x : Reg) : Statement (.sknp x) := (fields_wordXKK (by decide) x _).1
theorem ldVxDt (x : Reg) : Statement (.ldVxDt x) := (fields_wordXKK (by decide) x _).1
theorem ldVxK (x : Reg) : Statement (.ldVxK x) := (fields_wordXKK (by decide) x _).1
theorem ldDtVx (x : Reg) : Statement (.ldDtVx x) := (fields_wordXKK (by decide) x _).1
theorem ldStVx (x : Reg) : Statement (.ldStVx x) := (fields_wordXKK (by decide) x _).1
theorem addI (x : Reg) : Statement (.addI x) := (fields_wordXKK (by decide) x _).1
theorem ldF (x : Reg) : Statement (.ldF x) := (fields_wordXKK (by decide) x _).1
theorem ldB (x : Reg) : Statement (.ldB x) := (fields_wordXKK (by decide) x _).1
theorem storeRegs (x : Reg) : Statement (.storeRegs x) := (fields_wordXKK (by decide) x _).1
theorem loadRegs (x : Reg) : Statement (.loadRegs x) := (fields_wordXKK (by decide) x _).1

end Sys2Proof.Laws.FamilyField
end

