-- ==== Sys2Proof/Tests/Slice0.lean ====
section
/-! SUPPORT. Tests against the spec's own words and vectors (30_encoding.md R65, 95_test_vectors.md), and for
every obligation with hypotheses a concrete case that meets them all (`witness_…`). -/

namespace Sys2Proof.Tests

open Sys2Proof Sys2Proof.Machine Sys2Proof.Claims

/-! ## Helpers -/

/-- The reset state with general registers set. -/
def regs (vs : List (Reg × Byte)) : State := vs.foldl (fun s p => s.setV p.1 p.2) State.reset

/-- The state with bytes at an address. -/
def poke (a : Nat) (bs : List Byte) (s : State) : State := s.setMem (s.mem.writeBlock a bs)

/-- One step of the word `op` placed at PC ends in a next state of which `p` holds. -/
def steps (op : Word) (s : State) (p : State → Bool) : Bool :=
  match step (s.placeWord op) with
  | .next t => p t
  | .fault _ | .refused _ => false

/-- One step of the word `op` placed at PC ends in the error `f`. -/
def stops (op : Word) (s : State) (f : Fault) : Bool :=
  match step (s.placeWord op) with
  | .fault g => g == f
  | .next _ | .refused _ => false

/-- An instruction answers a next state of which `p` holds. -/
def runs (i : Instr) (s : State) (p : State → Bool) : Bool :=
  match exec i s with
  | .next t => p t
  | .fault _ | .refused _ => false

/-- The pixels that are 1, row by row. -/
def lit (f : FrameBuffer) : List (Nat × Nat) :=
  (List.range 32).flatMap fun y => ((List.range 64).filter (f.pixel · y)).map fun x => (x, y)

/-! ## Well-formedness: the check refuses its two ill-formed terms (30_encoding.md R65 row 1) -/

theorem test_wellFormed_refuses_sys_0E0 : (Instr.sys 0x0E0).wellFormed = false := by decide

theorem test_wellFormed_refuses_sys_0EE : (Instr.sys 0x0EE).wellFormed = false := by decide

/-! ## Decoding: one word of each row, bit by bit from its pattern (30_encoding.md R65) -/

theorem test_decode_sys : decodeTableWord 16 0b0000_0001_0010_0011 = some (.sys 0x123) := by decide

theorem test_decode_cls : decodeTableWord 16 0b0000_0000_1110_0000 = some (.cls) := by decide

theorem test_decode_ret : decodeTableWord 16 0b0000_0000_1110_1110 = some (.ret) := by decide

theorem test_decode_jp : decodeTableWord 16 0b0001_1010_1011_1100 = some (.jp 0xABC) := by decide

theorem test_decode_call : decodeTableWord 16 0b0010_0100_0000_0001 = some (.call 0x401) := by decide

theorem test_decode_seByte : decodeTableWord 16 0b0011_0011_0010_1010 = some (.seByte 3 0x2A) := by decide

theorem test_decode_sneByte : decodeTableWord 16 0b0100_0011_1000_0001 = some (.sneByte 3 0x81) := by decide

theorem test_decode_seReg : decodeTableWord 16 0b0101_0001_0010_0000 = some (.seReg 1 2) := by decide

theorem test_decode_ldByte : decodeTableWord 16 0b0110_1010_0111_1111 = some (.ldByte 10 0x7F) := by decide

theorem test_decode_addByte : decodeTableWord 16 0b0111_0101_1111_1110 = some (.addByte 5 0xFE) := by decide

theorem test_decode_ldReg : decodeTableWord 16 0b1000_0001_0010_0000 = some (.ldReg 1 2) := by decide

theorem test_decode_orReg : decodeTableWord 16 0b1000_0011_0100_0001 = some (.orReg 3 4) := by decide

theorem test_decode_andReg : decodeTableWord 16 0b1000_0101_0110_0010 = some (.andReg 5 6) := by decide

theorem test_decode_xorReg : decodeTableWord 16 0b1000_0111_1000_0011 = some (.xorReg 7 8) := by decide

theorem test_decode_addReg : decodeTableWord 16 0b1000_1001_1010_0100 = some (.addReg 9 10) := by decide

theorem test_decode_subReg : decodeTableWord 16 0b1000_1011_1100_0101 = some (.subReg 11 12) := by decide

theorem test_decode_shr : decodeTableWord 16 0b1000_1101_1110_0110 = some (.shr 13 14) := by decide

theorem test_decode_subn : decodeTableWord 16 0b1000_1111_0000_0111 = some (.subn 15 0) := by decide

theorem test_decode_shl : decodeTableWord 16 0b1000_0100_0101_1110 = some (.shl 4 5) := by decide

theorem test_decode_sneReg : decodeTableWord 16 0b1001_0001_0010_0000 = some (.sneReg 1 2) := by decide

theorem test_decode_ldI : decodeTableWord 16 0b1010_0011_0000_0101 = some (.ldI 0x305) := by decide

theorem test_decode_jpV0 : decodeTableWord 16 0b1011_1111_1111_1110 = some (.jpV0 0xFFE) := by decide

theorem test_decode_rnd : decodeTableWord 16 0b1100_0011_0000_1111 = some (.rnd 3 0x0F) := by decide

theorem test_decode_drw : decodeTableWord 16 0b1101_0001_0010_0101 = some (.drw 1 2 5) := by decide

theorem test_decode_skp : decodeTableWord 16 0b1110_0001_1001_1110 = some (.skp 1) := by decide

theorem test_decode_sknp : decodeTableWord 16 0b1110_0010_1010_0001 = some (.sknp 2) := by decide

theorem test_decode_ldVxDt : decodeTableWord 16 0b1111_0011_0000_0111 = some (.ldVxDt 3) := by decide

theorem test_decode_ldVxK : decodeTableWord 16 0b1111_0100_0000_1010 = some (.ldVxK 4) := by decide

theorem test_decode_ldDtVx : decodeTableWord 16 0b1111_0101_0001_0101 = some (.ldDtVx 5) := by decide

theorem test_decode_ldStVx : decodeTableWord 16 0b1111_0110_0001_1000 = some (.ldStVx 6) := by decide

theorem test_decode_addI : decodeTableWord 16 0b1111_0111_0001_1110 = some (.addI 7) := by decide

theorem test_decode_ldF : decodeTableWord 16 0b1111_1000_0010_1001 = some (.ldF 8) := by decide

theorem test_decode_ldB : decodeTableWord 16 0b1111_1001_0011_0011 = some (.ldB 9) := by decide

theorem test_decode_storeRegs : decodeTableWord 16 0b1111_1010_0101_0101 = some (.storeRegs 10) := by decide

theorem test_decode_loadRegs : decodeTableWord 16 0b1111_1011_0110_0101 = some (.loadRegs 11) := by decide

/-- Words of 95_test_vectors.md section 2.7 that are no instruction (R68). -/
theorem test_decode_refuses : [0x5121, 0x9AB3, 0x8128, 0x812F, 0xE19F, 0xE1A0, 0xF000, 0xF130, 0xF175,
    0xFFFF].map (decodeTableWord 16) = List.replicate 10 none := by decide

/-- Two bytes in memory order, the rest of the list left over (R60, 20_memory.md R42). -/
theorem test_decodeBytes :
    decodeBytes [0x6A, 0x55, 0x12] = .ok (.ldByte 10 0x55, [0x12]) ∧ decodeBytes [0x6A] = .error .truncated := by
  decide

/-! ## One step each, from 95_test_vectors.md (the vector's name in each comment) -/

/-- CF16. -/
theorem test_sys :
    stops 0x0123 State.reset (.decodeError 0x0123) = true := by decide

/-- DR1. -/
theorem test_cls :
    steps 0x00E0 ((regs [(15, 1)]).setFb (((State.reset.fb).toggle 0 0).toggle 63 31)) (fun t =>
      lit t.fb == [] && t.v 15 == 1 && t.draw && t.pc == 0x202) = true := by decide

/-- CF7. -/
theorem test_ret :
    steps 0x00EE (((State.reset.setPc 0x400).setSp 1).setStack (State.reset.stack.set 0 0x0202)) (fun t =>
      t.pc == 0x202 && t.sp == 0 && t.stack[0] == 0x0202) = true := by decide

/-- CF8. -/
theorem test_ret_empty :
    stops 0x00EE State.reset (.outOfRange .stack 0) = true := by decide

/-- CF1. -/
theorem test_jp :
    steps 0x1ABC State.reset (fun t => t.pc == 0xABC) = true := by decide

/-- CF17. -/
theorem test_call :
    steps 0x2ABC ((State.reset.setDt 5).setSt 1) (fun t =>
      t.pc == 0xABC && t.sp == 1 && t.stack[0] == 0x0202 && t.dt == 4 && t.st == 0 && t.sndEnd) = true := by
  decide

/-- CF6. -/
theorem test_call_full :
    stops 0x2400 (State.reset.setSp 16) (.resourceExhausted 0x2400) = true := by decide

/-- CF10. -/
theorem test_jpV0 :
    steps 0xBFFF (regs [(0, 0xFF)]) (fun t => t.pc == 0x10FE) = true := by decide

/-- SK1. -/
theorem test_seByte :
    steps 0x332A (regs [(3, 0x2A)]) (fun t => t.pc == 0x204) = true := by decide

/-- SK3. -/
theorem test_sneByte :
    steps 0x432A (regs [(3, 0x2A)]) (fun t => t.pc == 0x202) = true := by decide

/-- SK6. -/
theorem test_seReg :
    steps 0x5120 ((regs [(1, 7), (2, 8)]).setPc 0x300) (fun t => t.pc == 0x302) = true := by decide

/-- SK8. -/
theorem test_sneReg :
    steps 0x9120 ((regs [(1, 7), (2, 8)]).setPc 0x300) (fun t => t.pc == 0x304) = true := by decide

/-- SK12. -/
theorem test_seByte_top :
    steps 0x3000 (State.reset.setPc 0xFFE) (fun t => t.pc == 0x1002) = true := by decide

/-- AL2. -/
theorem test_ldByte :
    steps 0x6F05 State.reset (fun t => t.v 15 == 5 && t.pc == 0x202) = true := by decide

/-- AL3. -/
theorem test_addByte :
    steps 0x7005 (regs [(0, 0xFE)]) (fun t => t.v 0 == 3 && t.v 15 == 0) = true := by decide

/-- AL5. -/
theorem test_addByte_vf :
    steps 0x7F01 (regs [(15, 0xFF)]) (fun t => t.v 15 == 0) = true := by decide

/-- AL6. -/
theorem test_ldReg :
    steps 0x8120 (regs [(2, 0x55)]) (fun t => t.v 1 == 0x55) = true := by decide

/-- AL7. -/
theorem test_orReg :
    steps 0x8121 (regs [(1, 0xF0), (2, 0x0F), (15, 1)]) (fun t => t.v 1 == 0xFF && t.v 15 == 1) = true := by
  decide

/-- AL8. -/
theorem test_andReg :
    steps 0x8122 (regs [(1, 0xF3), (2, 0x3F), (15, 1)]) (fun t => t.v 1 == 0x33 && t.v 15 == 1) = true := by
  decide

/-- AL9. -/
theorem test_xorReg :
    steps 0x8123 (regs [(1, 0xFF), (2, 0x0F), (15, 1)]) (fun t => t.v 1 == 0xF0 && t.v 15 == 1) = true := by
  decide

/-- AL12. -/
theorem test_addReg :
    steps 0x8014 (regs [(0, 0x0A), (1, 0x14), (15, 1)]) (fun t => t.v 0 == 0x1E && t.v 15 == 0) = true := by
  decide

/-- AL16. -/
theorem test_addReg_vf :
    steps 0x8F14 (regs [(15, 0xC8), (1, 0x64)]) (fun t => t.v 15 == 1) = true := by decide

/-- AL19. -/
theorem test_subReg :
    steps 0x8015 (regs [(0, 5), (1, 10)]) (fun t => t.v 0 == 0xFB && t.v 15 == 0) = true := by decide

/-- AL21. -/
theorem test_subReg_equal :
    steps 0x8015 (regs [(0, 7), (1, 7)]) (fun t => t.v 0 == 0 && t.v 15 == 1) = true := by decide

/-- AL29. -/
theorem test_shr :
    steps 0x8456 (regs [(4, 4), (5, 0xFF)]) (fun t => t.v 4 == 2 && t.v 15 == 0 && t.v 5 == 0xFF) = true := by
  decide

/-- AL29 with SHIFT_SRC = VY. -/
theorem test_shr_source_vy :
    (match shiftRight .vy 4 5 (regs [(4, 4), (5, 0xFF)]) with
      | .next t => t.v 4 == 0x7F && t.v 15 == 1
      | _ => false) = true := by decide

/-- AL25. -/
theorem test_subn :
    steps 0x8017 (regs [(0, 10), (1, 5)]) (fun t => t.v 0 == 0xFB && t.v 15 == 0) = true := by decide

/-- AL33. -/
theorem test_shl :
    steps 0x840E (regs [(4, 0x81)]) (fun t => t.v 4 == 2 && t.v 15 == 1) = true := by decide

/-- AL35 with SHIFT_SRC = VY. -/
theorem test_shl_source_vy :
    (match shiftLeft .vy 4 5 (regs [(4, 1), (5, 0xFF)]) with
      | .next t => t.v 4 == 0xFE && t.v 15 == 1
      | _ => false) = true := by decide

/-- AL38. -/
theorem test_rnd :
    (match perform (.step 0xA7) (State.reset.placeWord 0xC30F) with
      | (.ok, t) => t.v 3 == 7 && t.pc == 0x202
      | _ => false) = true := by decide

/-- AL38, the byte taken from the listed inputs (log 1). -/
theorem test_rnd_listed :
    steps 0xC30F (State.reset.setRndInputs [0xA7, 0x11]) (fun t => t.v 3 == 7 && t.rndInputs == [0x11]) = true := by
  decide

/-- DR4. -/
theorem test_drw_wrap :
    steps 0xD011 (poke 0x300 [0xFF] ((regs [(0, 60), (1, 31)]).setI 0x300)) (fun t =>
      lit t.fb == [(0, 31), (1, 31), (2, 31), (3, 31), (60, 31), (61, 31), (62, 31), (63, 31)] &&
        t.v 15 == 0 && t.draw) = true := by decide

/-- DR11. -/
theorem test_drw_vf :
    steps 0xDFF1 (poke 0x300 [0x80] ((regs [(15, 0x45)]).setI 0x300)) (fun t =>
      lit t.fb == [(5, 5)] && t.v 15 == 0) = true := by decide

/-- KT7. -/
theorem test_skp :
    steps 0xE19E (((regs [(1, 7)]).setKey 3 true).setKey 7 true) (fun t =>
      t.pc == 0x204 && t.key 7 == false && t.key 3) = true := by decide

/-- KT5. -/
theorem test_skp_range :
    stops 0xE19E (regs [(1, 0x10)]) (.outOfRange .key 0x10) = true := by decide

/-- KT4. -/
theorem test_sknp :
    steps 0xE1A1 (((regs [(1, 7)]).setKey 7 true).setPc 0x20C) (fun t =>
      t.pc == 0x20E && t.key 7 == false) = true := by decide

/-- KT11. -/
theorem test_ldVxDt :
    steps 0xF207 (State.reset.setDt 1) (fun t => t.v 2 == 1 && t.dt == 0 && t.pc == 0x202) = true := by
  decide

/-- KT9. -/
theorem test_ldVxK :
    steps 0xF10A (State.reset.setKey 4 true) (fun t =>
      t.kw && t.kwReg == 1 && t.v 1 == 0 && t.key 4 && t.pc == 0x202) = true := by decide

/-- KT14. -/
theorem test_ldDtVx :
    steps 0xF015 (regs [(0, 3)]) (fun t => t.dt == 2) = true := by decide

/-- KT18. -/
theorem test_ldStVx :
    steps 0xF018 (regs [(0, 1)]) (fun t => t.st == 0 && t.sndEnd && t.outputs.soundOn == false) = true := by
  decide

/-- IM5. -/
theorem test_addI :
    steps 0xFF1E ((regs [(15, 0xFF)]).setI 0x10) (fun t => t.i == 0x10F && t.v 15 == 0xFF) = true := by
  decide

/-- IM2. -/
theorem test_ldI :
    steps 0xAFFF State.reset (fun t => t.i == 0x0FFF) = true := by decide

/-- IM7. -/
theorem test_ldF :
    steps 0xF029 ((regs [(0, 15)]).setI 0x300) (fun t => t.i == 0x4B) = true := by decide

/-- IM11. -/
theorem test_ldB :
    steps 0xF033 ((regs [(0, 0xFF)]).setI 0xFFD) (fun t => t.mem.readBlock 0xFFD 3 == [2, 5, 5]) = true := by
  decide

/-- IM13. -/
theorem test_ldB_protect :
    stops 0xF033 ((regs [(0, 7)]).setI 0x1FF) (.outOfRange .memProtect 0x1FF) = true := by decide

/-- IM15. -/
theorem test_storeRegs :
    steps 0xF255 ((regs [(0, 0x11), (1, 0x22), (2, 0x33)]).setI 0x400) (fun t =>
      t.mem.readBlock 0x3FF 5 == [0, 0x11, 0x22, 0x33, 0] && t.i == 0x400) = true := by decide

/-- IM28. -/
theorem test_storeRegs_range :
    stops 0xF055 (State.reset.setI 0xFFFF) (.outOfRange .memWrite 0xFFFF) = true := by decide

/-- IM23. -/
theorem test_loadRegs :
    steps 0xF465 (regs [(5, 9)]) (fun t =>
      t.regs.toList.take 6 == [0xF0, 0x90, 0x90, 0x90, 0xF0, 9]) = true := by decide

/-- IM26. -/
theorem test_loadRegs_range :
    stops 0xF065 (State.reset.setI 0x1000) (.outOfRange .memRead 0x1000) = true := by decide

/-! ## The host's operations -/

/-- RS2. -/
theorem test_reset_step :
    perform (.step 0) State.reset = (.error (.decodeError 0x0000), State.reset) := by decide

/-- KT23. -/
theorem test_blocked :
    perform (.step 0) (((State.reset.setKw true).setPc 0xFFFF).setDt 5) =
      (.blocked, ((State.reset.setKw true).setPc 0xFFFF).setDt 5) := by decide

/-- KT27. -/
theorem test_deliverKey :
    (let t := runScript [.deliverKey 0, .deliverKey 5] (((regs [(2, 9)]).setKw true).setKwReg 2);
      t.v 2 == 0 && t.key 0 && t.key 5 && !t.kw) = true := by decide

/-- LD4, LD5. -/
theorem test_load :
    (let t := runScript [.load [1, 2, 3, 4], .load [9, 8]] ((State.reset.setKw true).setPc 0x246);
      t.mem.readBlock 0x200 5 == [9, 8, 3, 4, 0] && t.kw && t.pc == 0x246) = true := by decide

/-- CF12. -/
theorem test_fetch_range :
    (match step (State.reset.setPc 0xFFF) with
      | .fault f => f == .outOfRange .fetch 0xFFF
      | _ => false) = true := by decide

/-! ## For every obligation with hypotheses, a case that meets them all

Where the hypotheses range over a boundary, there is a case on either side of it. -/

theorem witness_OpcodePatternsDecodeToTheirRows :
    (0x123#12).toNat ≠ 0x0E0 ∧ (0x123#12).toNat ≠ 0x0EE := by decide

theorem witness_DecodeOfEncodeIsTheInstruction : (Instr.sys 0x0E1).wellFormed = true := by decide

theorem witness_EncodeOfDecodeIsTheWord : decodeWord 0x8F14 = .ok (.addReg 15 1) := by decide

theorem witness_UnmatchedWordsRaiseDecodeError :
    Fetches (State.reset.placeWord 0x5121) 0x5121 ∧
      ∀ row : Instr, rowMatch row ≠ 0x0000 → (0x5121 : Word) &&& rowMask row ≠ rowMatch row := by
  refine ⟨⟨rfl, by decide, by decide⟩, fun row => ?_⟩
  cases row <;> simp only [rowMatch, rowMask] <;> decide

/-- Blocked; PC just too high; at the highest PC a word of no instruction, one that completes, and one
that stops (CALL with a full stack). -/
theorem witness_StepRunsTheDecodedInstruction :
    (State.reset.setKw true).kw = true ∧
    ((State.reset.setPc 0xFFF).kw = false ∧ 0xFFE < (State.reset.setPc 0xFFF).pc.toNat) ∧
    (Fetches ((State.reset.setPc 0xFFE).placeWord 0xF166) 0xF166 ∧
      decodeWord 0xF166 = .error (.noSuchInstruction 0xF166)) ∧
    (Fetches ((State.reset.setPc 0xFFE).placeWord 0x1234) 0x1234 ∧ decodeWord 0x1234 = .ok (.jp 0x234) ∧
      ∃ u, exec (.jp 0x234) ((State.reset.setPc 0xFFE).placeWord 0x1234).clearDraw = .next u) ∧
    Fetches ((State.reset.setSp 16).placeWord 0x2400) 0x2400 ∧ decodeWord 0x2400 = .ok (.call 0x400) ∧
      ∃ f, exec (.call 0x400) ((State.reset.setSp 16).placeWord 0x2400).clearDraw = .fault f :=
  ⟨rfl, by decide, ⟨⟨rfl, by decide, by decide⟩, by decide⟩,
    ⟨⟨rfl, by decide, by decide⟩, by decide, _, rfl⟩, ⟨rfl, by decide, by decide⟩, by decide, _, rfl⟩

/-- The timers at 0 and at 1. -/
theorem witness_TimerPhaseCountsDown :
    (Fetches (State.reset.placeWord 0x1ABC) 0x1ABC ∧ decodeWord 0x1ABC = .ok (.jp 0xABC) ∧
      ∃ u, exec (.jp 0xABC) (State.reset.placeWord 0x1ABC).clearDraw = .next u ∧ u.st = 0 ∧ u.dt = 0) ∧
    Fetches (((State.reset.setDt 1).setSt 1).placeWord 0x1ABC) 0x1ABC ∧
      ∃ u, exec (.jp 0xABC) (((State.reset.setDt 1).setSt 1).placeWord 0x1ABC).clearDraw = .next u ∧
        u.st = 1 ∧ u.dt = 1 :=
  ⟨⟨⟨rfl, by decide, by decide⟩, by decide, _, rfl, rfl, rfl⟩, ⟨rfl, by decide, by decide⟩, _, rfl, rfl, rfl⟩

/-- A blocked step and a faulting one, neither with outcome OK. -/
theorem witness_TimerPhaseCountsDown_other :
    (perform (.step 0) (State.reset.setKw true)).1 ≠ .ok ∧ (perform (.step 0) State.reset).1 ≠ .ok := by decide

theorem witness_BlockedStepsChangeNothing :
    (State.reset.setKw true).kw = true ∧ (perform (.deliverKey 3) (State.reset.setKw true)).2.kw = false ∧
      (perform .reset (State.reset.setKw true)).2.kw = false := by decide

theorem witness_FetchIsBigEndianAndRangeChecked :
    0xFFE < (State.reset.setPc 0xFFF).pc.toNat ∧ (State.reset.setPc 0xFFE).pc.toNat ≤ 0xFFE := by decide

/-- On either side of each error's condition. -/
theorem witness_InstructionsFaultExactlyWhereTheirRuleSays :
    (∀ f, ¬ Raises .cls State.reset f) ∧
    (∀ f, ¬ Raises (.drw 0 1 1) (State.reset.setI 0xFFF) f) ∧
    Raises (.drw 0 1 1) (State.reset.setI 0x1000) (.outOfRange .memRead 0x1000) ∧
    (∀ f, ¬ Raises (.drw 0 1 0) (State.reset.setI 0xFFFF) f) ∧
    Raises .ret State.reset (.outOfRange .stack 0) ∧ (∀ f, ¬ Raises .ret (State.reset.setSp 1) f) ∧
    Raises (.call 0) (State.reset.setSp 16) (.resourceExhausted 0x2000) ∧
    (∀ f, ¬ Raises (.call 0) (State.reset.setSp 15) f) ∧
    Raises (.ldF 0) (regs [(0, 16)]) (.outOfRange .glyph 16) ∧ (∀ f, ¬ Raises (.ldF 0) (regs [(0, 15)]) f) ∧
    Raises (.skp 0) (regs [(0, 16)]) (.outOfRange .key 16) ∧ (∀ f, ¬ Raises (.sknp 0) (regs [(0, 15)]) f) ∧
    Raises (.ldB 0) (State.reset.setI 0xFFE) (.outOfRange .memWrite 0x1000) ∧
    Raises (.ldB 0) (State.reset.setI 0x1FF) (.outOfRange .memProtect 0x1FF) ∧
    (∀ f, ¬ Raises (.ldB 0) (State.reset.setI 0xFFD) f) ∧ (∀ f, ¬ Raises (.ldB 0) (State.reset.setI 0x200) f) ∧
    Raises (.storeRegs 15) (State.reset.setI 0xFF1) (.outOfRange .memWrite 0x1000) ∧
    Raises (.storeRegs 15) (State.reset.setI 0x1FF) (.outOfRange .memProtect 0x1FF) ∧
    (∀ f, ¬ Raises (.storeRegs 15) (State.reset.setI 0xFF0) f) ∧
    Raises (.loadRegs 15) (State.reset.setI 0xFF1) (.outOfRange .memRead 0x1000) ∧
    (∀ f, ¬ Raises (.loadRegs 15) (State.reset.setI 0xFF0) f) ∧
    Raises (.sys 0x123) State.reset (.decodeError 0x123) := by
  simp [Raises, regs, State.reset, State.setI, State.setSp, State.setV, State.v]

theorem witness_DrawFlagIsSetExactlyByClsAndDrw :
    (Fetches (State.reset.placeWord 0x00E0) 0x00E0 ∧ decodeWord 0x00E0 = .ok .cls ∧
      ∃ t, step (State.reset.placeWord 0x00E0) = .next t) ∧
    Fetches ((State.reset.setDraw true).placeWord 0x6A7F) 0x6A7F ∧
      decodeWord 0x6A7F = .ok (.ldByte 10 0x7F) ∧
      ∃ t, step ((State.reset.setDraw true).placeWord 0x6A7F) = .next t :=
  ⟨⟨⟨rfl, by decide, by decide⟩, by decide, _, rfl⟩, ⟨rfl, by decide, by decide⟩, by decide, _, rfl⟩

/-- A sequential instruction, and a skip with its condition true and false, at PC values that wrap. -/
theorem witness_ProgramCounterClasses :
    (∃ t, exec .cls (State.reset.setPc 0xFFFE) = .next t ∧ AdvancesByTwo .cls) ∧
    (∃ t c, exec (.seByte 0 0) (State.reset.setPc 0xFFFC) = .next t ∧
      skipCondition (State.reset.setPc 0xFFFC) (.seByte 0 0) = some c ∧ c) ∧
    ∃ t c, exec (.seByte 0 1) State.reset = .next t ∧
      skipCondition State.reset (.seByte 0 1) = some c ∧ ¬ c :=
  ⟨⟨_, rfl, trivial⟩, ⟨_, _, rfl, rfl, by decide⟩, _, _, rfl, rfl, by decide⟩

/-- Each written piece of state is really written by an instruction of its list. -/
theorem witness_StateIsWrittenOnlyByItsListedInstructions :
    runs (.ldB 0) ((regs [(0, 7)]).setI 0x300) (fun t => t.mem.read 0x302 != 0) = true ∧
    runs (.ldI 1) State.reset (fun t => t.i != 0) = true ∧
    runs (.call 0) State.reset (fun t => t.stack != State.reset.stack && t.sp != 0) = true ∧
    runs (.drw 0 1 1) State.reset (fun t => t.fb != State.reset.fb && t.draw) = true ∧
    runs (.ldDtVx 0) (regs [(0, 7)]) (fun t => t.dt != 0) = true ∧
    runs (.ldStVx 0) (regs [(0, 7)]) (fun t => t.st != 0) = true ∧
    runs (.sknp 0) (State.reset.setKey 0 true) (fun t => !t.key 0) = true ∧
    runs (.ldVxK 1) State.reset (fun t => t.kw && t.kwReg != 0) = true := by decide

/-- Each of the six flag writers, and one that names VF. -/
theorem witness_OnlySixInstructionsWriteTheFlag :
    ([.addReg 0 1, .subReg 0 1, .shr 0 1, .subn 0 1, .shl 0 1, .drw 0 1 1].all fun i =>
      runs i (regs [(15, 9)]) fun t => t.v 15 != 9) = true ∧
    runs (.ldByte 15 7) State.reset (fun t => t.v 15 != 0) = true := by decide

theorem witness_ErrorsChangeNothingAndRepeat :
    perform (.step 0) State.reset = (.error (.decodeError 0), State.reset) := by decide

theorem witness_StepErrorPriority :
    ((State.reset.setKw true).setPc 0xFFFF).kw = true ∧
    ((State.reset.setPc 0xFFF).kw = false ∧ 0xFFE < (State.reset.setPc 0xFFF).pc.toNat) ∧
    (Fetches (State.reset.placeWord 0x812F) 0x812F ∧
      decodeWord 0x812F = .error (.noSuchInstruction 0x812F)) ∧
    Fetches (State.reset.placeWord 0x00EE) 0x00EE ∧ decodeWord 0x00EE = .ok .ret ∧
      Raises .ret (State.reset.placeWord 0x00EE) (.outOfRange .stack 0) :=
  ⟨rfl, by decide, ⟨⟨rfl, by decide, by decide⟩, by decide⟩, ⟨rfl, by decide, by decide⟩, by decide, rfl, rfl⟩

theorem witness_CallPushesTheReturnAddress :
    (State.reset.setSp 16).sp.val = 16 ∧ (State.reset.setSp 15).sp.val < 16 ∧ State.reset.sp.val < 16 := by
  decide

theorem witness_ReturnPopsTheReturnAddress :
    State.reset.sp.val = 0 ∧ (State.reset.setSp 1).sp.val = (0 : Fin 16).val + 1 ∧
      (State.reset.setSp 16).sp.val = (15 : Fin 16).val + 1 := by decide

theorem witness_SysAlwaysRaisesDecodeError :
    Fetches (State.reset.placeWord 0x0FFF) 0x0FFF ∧ (0x0FFF : Word) &&& 0xF000 = 0x0000 ∧
      (0x0FFF : Word) ≠ 0x00E0 ∧ (0x0FFF : Word) ≠ 0x00EE :=
  ⟨⟨rfl, by decide, by decide⟩, by decide, by decide, by decide⟩

/-- CALL 0x400 at 0x200; CALL 0x500 and RET between; RET at 0x402. -/
def callProgram : State :=
  poke 0x200 [0x24, 0x00] (poke 0x400 [0x25, 0x00, 0x00, 0xEE] (poke 0x500 [0x00, 0xEE] State.reset))

theorem witness_MatchingReturnResumesAfterTheCall :
    ∃ s1 t, Fetches callProgram 0x2400 ∧ decodeWord 0x2400 = .ok (.call 0x400) ∧
      perform (.step 0) callProgram = (.ok, s1) ∧
      (∀ o ∈ [Operation.step 0, .step 0], o ≠ .reset) ∧
      (∀ k ≤ [Operation.step 0, .step 0].length,
        callProgram.sp.val < (runScript ([Operation.step 0, .step 0].take k) s1).sp.val) ∧
      (runScript [.step 0, .step 0] s1).sp.val = callProgram.sp.val + 1 ∧
      Fetches (runScript [.step 0, .step 0] s1) 0x00EE ∧ decodeWord 0x00EE = .ok .ret ∧
      perform (.step 0) (runScript [.step 0, .step 0] s1) = (.ok, t) :=
  ⟨_, _, ⟨rfl, by decide, by decide⟩, by decide, rfl, by decide, by decide, by decide,
    ⟨by decide, by decide, by decide⟩, by decide, rfl⟩

/-- A CALL and a RET with an entry below them that stays live. -/
theorem witness_LiveStackEntriesAreKept :
    Operation.step 0 ≠ .reset ∧ (0 : Fin 16).val < ((State.reset.setSp 1).placeWord 0x2400).sp.val ∧
    (0 : Fin 16).val < (perform (.step 0) ((State.reset.setSp 1).placeWord 0x2400)).2.sp.val ∧
    (0 : Fin 16).val < ((State.reset.setSp 2).placeWord 0x00EE).sp.val ∧
    (0 : Fin 16).val < (perform (.step 0) ((State.reset.setSp 2).placeWord 0x00EE)).2.sp.val := by decide

theorem witness_SkipsCompareAndSkip :
    (0x5121 : Word).toNat / 4096 = 5 ∧ (0x912F : Word).toNat / 4096 = 9 ∧ (0x5121 : Word).toNat % 16 ≠ 0 ∧
      (0x912F : Word).toNat % 16 ≠ 0 := by decide

theorem witness_AddSetsSumAndCarry : (14 : Reg) ≠ 15 := by decide

theorem witness_SubtractionsSetDifferenceAndNotBorrow : (0 : Reg) ≠ 15 := by decide

theorem witness_ShiftsMoveOneBitOut : (14 : Reg) ≠ 15 := by decide

theorem witness_RandomIsTheSuppliedByteMasked :
    Fetches (State.reset.placeWord 0xC30F) 0xC30F ∧ decodeWord 0xC30F = .ok (.rnd 3 0x0F) :=
  ⟨⟨rfl, by decide, by decide⟩, by decide⟩

theorem witness_RandomTakesTheSampledByte :
    (State.reset.setRndInputs [0xA7, 0x11]).rndInputs = 0xA7 :: [0x11] ∧ State.reset.rndInputs = [] := by decide

theorem witness_RandomIsTheSuppliedByteMasked_other (op : Word) (x : Reg) (kk : Byte)
    (h : Fetches (State.reset.placeWord 0x1ABC) op) : decodeWord op ≠ .ok (.rnd x kk) := by
  have e : op = 0x1ABC := h.2.2.trans (by decide)
  subst e
  have d : decodeWord 0x1ABC = .ok (.jp 0xABC) := by decide
  rw [d]
  simp

/-- N = 0 anywhere, the last sprite byte at 0xFFF and at 0x1000; a collision and none. -/
theorem witness_DrawXorsTheSpriteAndReportsCollision :
    (1 ≤ (15 : Nibble).toNat ∧ 0xFFF < (State.reset.setI 0xFF2).i.toNat + (15 : Nibble).toNat - 1) ∧
    (State.reset.setI 0xFF1).i.toNat + (15 : Nibble).toNat - 1 ≤ 0xFFF ∧ (0 : Nibble).toNat = 0 ∧
    (SpriteBitAt 0 1 1 (State.reset.setFb (State.reset.fb.toggle 0 0)) 0 0 ∧
      (State.reset.setFb (State.reset.fb.toggle 0 0)).fb.pixel 0 0 = true) ∧
    ∀ px < 64, ∀ py < 32, SpriteBitAt 0 1 1 State.reset px py → State.reset.fb.pixel px py = false :=
  ⟨by decide, by decide, rfl, ⟨⟨0, by decide, 0, by decide, by decide, by decide, by decide⟩, by decide⟩,
    fun px _ py _ _ => by simp [State.reset, FrameBuffer.pixel]⟩

theorem witness_DrawingTwiceRestoresTheScreen :
    ∃ t t' : State, exec (.drw 0 1 5) State.reset = .next t ∧ t'.fb = t.fb ∧ t'.i = State.reset.i ∧
      (∀ a, t'.mem.read a = State.reset.mem.read a) ∧ t'.v 0 = State.reset.v 0 ∧ t'.v 1 = State.reset.v 1 :=
  ⟨_, _, rfl, rfl, rfl, fun _ => rfl, by decide, by decide⟩

theorem witness_SecondDrawAlwaysCollides :
    ∃ t u : State, (0 : Reg) ≠ 15 ∧ (1 : Reg) ≠ 15 ∧ exec (.drw 0 1 1) State.reset = .next t ∧
      exec (.drw 0 1 1) t = .next u ∧
      ∃ r < (1 : Nibble).toNat, ∃ c < 8, (State.reset.mem.read (State.reset.i.toNat + r)).getLsbD c = true :=
  ⟨_, _, by decide, by decide, rfl, rfl, 0, by decide, 7, by decide, by decide⟩

theorem witness_KeyTestsSkipAndConsume :
    15 < ((regs [(1, 16)]).v 1).toNat ∧ ((regs [(1, 15)]).v 1).toNat = (15 : Key).val := by decide

theorem witness_AwaitKeyEntersKeyWait :
    Fetches ((State.reset.setDt 2).placeWord 0xF10A) 0xF10A ∧ decodeWord 0xF10A = .ok (.ldVxK 1) :=
  ⟨⟨rfl, by decide, by decide⟩, by decide⟩

theorem witness_TimerInstructionsMoveTheByte :
    (Fetches (State.reset.placeWord 0xF207) 0xF207 ∧ decodeWord 0xF207 = .ok (.ldVxDt 2)) ∧
    (Fetches (State.reset.placeWord 0xF215) 0xF215 ∧ decodeWord 0xF215 = .ok (.ldDtVx 2)) ∧
    Fetches (State.reset.placeWord 0xF218) 0xF218 ∧ decodeWord 0xF218 = .ok (.ldStVx 2) :=
  ⟨⟨⟨rfl, by decide, by decide⟩, by decide⟩, ⟨⟨rfl, by decide, by decide⟩, by decide⟩,
    ⟨rfl, by decide, by decide⟩, by decide⟩

theorem witness_DeliverKeyRecordsAndResolves :
    (State.reset.setKw true).kw = true ∧ State.reset.kw = false := by decide

theorem witness_KeyWaitSuspendsUntilDelivery :
    Fetches (State.reset.placeWord 0xFF0A) 0xFF0A ∧ decodeWord 0xFF0A = .ok (.ldVxK 15) ∧
      ∀ o ∈ [Operation.step 0, .load [0x12, 0x00], .step 7], StepOrLoad o :=
  ⟨⟨rfl, by decide, by decide⟩, by decide, by simp [StepOrLoad]⟩

theorem witness_KeyWaitIsKeptByStepsAndLoads :
    (State.reset.setKw true).kw = true ∧ StepOrLoad (.load [0x12, 0x00]) ∧ StepOrLoad (.step 0) :=
  ⟨rfl, trivial, trivial⟩

theorem witness_GlyphAddressIsFiveTimesTheDigit :
    15 < ((regs [(0, 16)]).v 0).toNat ∧ ((regs [(0, 15)]).v 0).toNat ≤ 15 := by decide

theorem witness_DecimalDigitsAreStored :
    0xFFF < (State.reset.setI 0xFFE).i.toNat + 2 ∧
    ((State.reset.setI 0x1FF).i.toNat + 2 ≤ 0xFFF ∧ (State.reset.setI 0x1FF).i.toNat < 0x200) ∧
    ((State.reset.setI 0x200).i.toNat + 2 ≤ 0xFFF ∧ 0x200 ≤ (State.reset.setI 0x200).i.toNat) ∧
    (State.reset.setI 0xFFD).i.toNat + 2 ≤ 0xFFF ∧ 0x200 ≤ (State.reset.setI 0xFFD).i.toNat := by decide

theorem witness_RegisterDumpStoresTheBlock :
    0xFFF < (State.reset.setI 0xFF1).i.toNat + (15 : Reg).val ∧
    ((State.reset.setI 0x1FF).i.toNat + (15 : Reg).val ≤ 0xFFF ∧ (State.reset.setI 0x1FF).i.toNat < 0x200) ∧
    ((State.reset.setI 0xFF0).i.toNat + (15 : Reg).val ≤ 0xFFF ∧
      0x200 ≤ (State.reset.setI 0xFF0).i.toNat) ∧
    (State.reset.setI 0x200).i.toNat + (0 : Reg).val ≤ 0xFFF ∧ 0x200 ≤ (State.reset.setI 0x200).i.toNat := by
  decide

theorem witness_RegisterLoadReadsTheBlock :
    0xFFF < (State.reset.setI 0xFF1).i.toNat + (15 : Reg).val ∧
      (State.reset.setI 0xFF0).i.toNat + (15 : Reg).val ≤ 0xFFF := by decide

theorem witness_RegisterLoadReadsTheBlock_after_dump :
    ∃ t t' : State, exec (.storeRegs 3) ((regs [(0, 1)]).setI 0x300) = .next t ∧
      (∀ a, t'.mem.read a = t.mem.read a) ∧ t'.i = ((regs [(0, 1)]).setI 0x300).i :=
  ⟨_, _, rfl, fun _ => rfl, by decide⟩

/-- FX55 at 0x300 with I = 0x302 stores the word the next fetch reads. -/
theorem witness_StoredWordIsTheNextFetched :
    ∃ t : State, exec (.storeRegs 1) ((State.reset.setPc 0x300).setI 0x302) = .next t ∧
      t.pc.toNat = ((State.reset.setPc 0x300).setI 0x302).addr 0 ∧ 0 + 1 ≤ (1 : Reg).val :=
  ⟨_, rfl, by decide, by decide⟩

theorem witness_LoadPlacesTheImage :
    3584 < (List.replicate 3585 (0xAA : Byte)).length ∧ (List.replicate 3584 (0xAA : Byte)).length ≤ 3584 := by
  rw [List.length_replicate, List.length_replicate]
  decide

theorem witness_MemoryBelowTheProgramNeverChanges :
    (∀ o ∈ [Operation.load [1], .step 0, .deliverKey 2], o ≠ .reset) ∧ 0x1FF < 0x200 := by decide

theorem witness_ResetLeavesTheTable :
    (State.reset.setKw true).kw = true ∧ (perform .reset (State.reset.setKw true)).2.kw = false := by decide

theorem witness_ResetIsIdempotentAndForgets :
    State.reset.rndInputs = (State.reset.setV 3 7).rndInputs ∧
      State.reset.rndCount = (State.reset.setV 3 7).rndCount := by decide

theorem witness_StepKeepsTheInvariant :
    (State.reset.placeWord 0x1ABC).Inv ∧ ∃ t, step (State.reset.placeWord 0x1ABC) = .next t :=
  ⟨⟨by decide, fun a ha =>
      Memory.read_writeBlock_of_outside (m := []) (a := 0x200) (bs := wordBytes 0x1ABC) (.inl ha),
    by decide, by decide, by decide⟩, _, rfl⟩

/-- At the bounds: PC at 0x10FE, a live stack entry of 0x1000, the sound just ended. -/
theorem witness_HostScriptsKeepTheInvariant :
    ((((State.reset.setPc 0x10FE).setSp 1).setStack (State.reset.stack.set 0 0x1000)).setSndEnd true).Inv :=
  ⟨by decide, fun _ _ => rfl, by decide, by decide, by decide⟩

/-- Two states that differ in STACK[0] above SP and in KWREG outside a wait. -/
theorem witness_DeadStateIsNeverRead :
    SameLive State.reset ((State.reset.setStack (State.reset.stack.set 0 7)).setKwReg 3) := by
  refine ⟨rfl, rfl, rfl, rfl, rfl, ?_, rfl, rfl, rfl, rfl, rfl, ?_, rfl, rfl, rfl, rfl⟩
  · intro n h
    exact absurd h (by simp [State.reset])
  · intro h
    simp [State.reset] at h

theorem witness_OutputsShowTheState : (63 : Nat) < 64 ∧ (31 : Nat) < 32 := by decide

theorem witness_PlacedWordIsTheNextFetched :
    (0xFFFF : Nat) < 65536 ∧ (State.reset.setPc 0xFFE).kw = false ∧ (State.reset.setPc 0xFFE).pc.toNat ≤ 0xFFE := by
  decide

end Sys2Proof.Tests
end

section
/-! SUPPORT. What a completed instruction can do to memory, the stack and PC, said once; from it, what keeps
the invariant of 10_state.md section 1 over a step and over the host's operations. -/

namespace Sys2Proof.Machine

variable {s t u : State}

/-! ### What an instruction can do to memory, the stack and PC -/

/-- Memory and the call stack are in `t` what they are in `s`. -/
structure SameMemAndStack (s t : State) : Prop where
  mem : t.mem = s.mem
  stack : t.stack = s.stack
  sp : t.sp = s.sp

/-- The ways a completed instruction can lead from `s` to `t`, as far as memory, the stack and PC go
(40_step_and_dispatch.md R87). -/
inductive Transfer (s t : State) : Prop where
  /-- On to the next instruction, or past it. -/
  | onward (keep : SameMemAndStack s t) (pc : t.pc = s.pc + 2 ∨ t.pc = s.pc + 4)
  /-- JP and JP V0 (41_control_flow.md R102, R104). -/
  | jump (nnn : Imm12) (keep : SameMemAndStack s t)
    (pc : t.pc = zextNNN nnn ∨ t.pc = zextNNN nnn + zextByte (s.v 0))
  /-- CALL with room on the stack (41_control_flow.md R103). -/
  | call (nnn : Imm12) (room : s.sp.val < 16) (mem : t.mem = s.mem)
    (stack : t.stack = s.stack.set s.sp.val (s.pc + 2)) (sp : t.sp.val = s.sp.val + 1)
    (pc : t.pc = zextNNN nnn)
  /-- RET with a live entry (41_control_flow.md R101). -/
  | ret (n : Fin 16) (mem : t.mem = s.mem) (stack : t.stack = s.stack)
    (sp : s.sp.val = t.sp.val + 1) (top : n.val = t.sp.val) (pc : t.pc = s.stack[n.val])
  /-- LD B and LD [I] inside writable memory (45_index_and_memory.md R173, R175). -/
  | store (base : Nat) (bs : List Byte) (low : 0x200 ≤ base) (high : base + bs.length ≤ Config.memSize)
    (mem : t.mem = s.mem.writeBlock base bs) (stack : t.stack = s.stack) (sp : t.sp = s.sp)
    (pc : t.pc = s.pc + 2)

/-- The sequential class after an effect on neither memory nor the stack nor PC. -/
theorem Transfer.of_advance (keep : SameMemAndStack s u) (pc : u.pc = s.pc) : Transfer s u.advance :=
  .onward ⟨keep.mem, keep.stack, keep.sp⟩ (.inl (by simp [pc]))

/-- The skip class after an effect on neither memory nor the stack nor PC. -/
theorem Transfer.of_skipIf (c : Bool) (keep : SameMemAndStack s u) (pc : u.pc = s.pc) :
    Transfer s (u.skipIf c) :=
  .onward ⟨keep.mem, keep.stack, keep.sp⟩ (by cases c <;> simp [pc])

/-- Every completed instruction does one of these five. -/
theorem exec_transfer {i : Instr} (h : exec i s = .next t) : Transfer s t := by
  cases i with
  | sys nnn => exact absurd h raise_ne_next
  | ret =>
    obtain ⟨hsp, rfl⟩ := execRet_eq_next.1 h
    exact .ret ⟨s.sp.val - 1, by omega⟩ rfl rfl (by simp; omega) rfl rfl
  | jp nnn =>
    cases h
    exact .jump nnn ⟨rfl, rfl, rfl⟩ (.inl rfl)
  | jpV0 nnn =>
    cases h
    exact .jump nnn ⟨rfl, rfl, rfl⟩ (.inr rfl)
  | call nnn =>
    obtain ⟨hsp, rfl⟩ := execCall_eq_next.1 h
    exact .call nnn hsp rfl rfl rfl rfl
  | seByte x kk | sneByte x kk | seReg x y | sneReg x y =>
    cases h
    exact .of_skipIf _ ⟨rfl, rfl, rfl⟩ rfl
  | skp x =>
    obtain ⟨k, -, rfl⟩ := execSkp_eq_next.1 h
    exact .of_skipIf _ ⟨rfl, rfl, rfl⟩ rfl
  | sknp x =>
    obtain ⟨k, -, rfl⟩ := execSknp_eq_next.1 h
    exact .of_skipIf _ ⟨rfl, rfl, rfl⟩ rfl
  | cls | ldByte x kk | addByte x kk | ldReg x y | orReg x y | andReg x y | xorReg x y | addReg x y
  | subReg x y | shr x y | subn x y | shl x y | ldI nnn | ldVxDt x | ldVxK x | ldDtVx x | ldStVx x
  | addI x =>
    cases h
    exact .of_advance ⟨rfl, rfl, rfl⟩ rfl
  | rnd x kk =>
    cases h
    exact .of_advance ⟨s.rndDrawn_mem, s.rndDrawn_stack, s.rndDrawn_sp⟩ s.rndDrawn_pc
  | drw x y n =>
    obtain ⟨-, rfl⟩ := execDrw_eq_next.1 h
    exact .of_advance ⟨rfl, rfl, rfl⟩ rfl
  | ldF x =>
    obtain ⟨d, -, rfl⟩ := execLdF_eq_next.1 h
    exact .of_advance ⟨rfl, rfl, rfl⟩ rfl
  | loadRegs x =>
    obtain ⟨-, rfl⟩ := execLoadRegs_eq_next.1 h
    exact .of_advance ⟨rfl, rfl, rfl⟩ rfl
  | ldB x =>
    obtain ⟨hhigh, hlow, rfl⟩ := execLdB_eq_next.1 h
    refine .store _ _ hlow ?_ rfl rfl rfl rfl
    simp only [State.addr, length_decimalDigits, Config.memSize] at hhigh ⊢
    omega
  | storeRegs x =>
    obtain ⟨hhigh, hlow, rfl⟩ := execStoreRegs_eq_next.1 h
    refine .store _ _ hlow ?_ rfl rfl rfl rfl
    simp only [State.addr, State.length_regBlock, Config.memSize] at hhigh ⊢
    omega

/-! ### Each clause of the invariant after an instruction -/

theorem zextNNN_toNat_lt (nnn : Imm12) : (zextNNN nnn).toNat < 0x1000 := by
  simp only [zextNNN, BitVec.toNat_setWidth]
  omega

/-- "at most 0x10FE is reachable", by 0xFFF + 0xFF (10_state.md R15). -/
theorem zextNNN_add_zextByte_toNat_le (nnn : Imm12) (b : Byte) :
    (zextNNN nnn + zextByte b).toNat ≤ 0x10FE := by
  simp only [zextNNN, zextByte, BitVec.toNat_add, BitVec.toNat_setWidth]
  omega

/-- A block stored in program memory leaves the bytes below it. -/
theorem read_writeBlock_lowIntact {m : Memory} {base : Nat} {bs : List Byte} (hbase : 0x200 ≤ base)
    (hm : ∀ a < 0x200, m.read a = Memory.resetByte a) :
    ∀ a < 0x200, (m.writeBlock base bs).read a = Memory.resetByte a := fun a ha =>
  (Memory.read_writeBlock_of_outside (.inl (by omega))).trans (hm a ha)

theorem Transfer.memWf (h : Transfer s t) (hs : s.Inv) : t.mem.wf := by
  cases h with
  | onward keep | jump _ keep => exact keep.mem ▸ hs.memWf
  | call _ _ mem | ret _ mem => exact mem ▸ hs.memWf
  | store base bs low high mem => exact mem ▸ Memory.wf_writeBlock hs.memWf high

theorem Transfer.lowIntact (h : Transfer s t) (hs : s.Inv) :
    ∀ a < 0x200, t.mem.read a = Memory.resetByte a := by
  cases h with
  | onward keep | jump _ keep => exact keep.mem ▸ hs.lowIntact
  | call _ _ mem | ret _ mem => exact mem ▸ hs.lowIntact
  | store base bs low high mem => exact mem ▸ read_writeBlock_lowIntact low hs.lowIntact

/-- An instruction that was fetched leaves PC in its bound: it goes on by at most 4 from 0xFFE, jumps by
R15's bound, or returns to a live entry. -/
theorem Transfer.pcBound (h : Transfer s t) (hs : s.Inv) (hfetch : s.pc.toNat ≤ 0xFFE) :
    t.pc.toNat ≤ 0x10FE := by
  cases h with
  | onward keep pc => obtain pc | pc := pc <;> rw [pc] <;> bv_omega
  | jump nnn keep pc =>
    obtain pc | pc := pc
    · have := zextNNN_toNat_lt nnn
      rw [pc]; omega
    · exact pc ▸ zextNNN_add_zextByte_toNat_le nnn _
  | call nnn room mem stack sp pc =>
    have := zextNNN_toNat_lt nnn
    rw [pc]; omega
  | ret n mem stack sp top pc =>
    have := hs.liveReturns n (by omega)
    rw [pc]; omega
  | store base bs low high mem stack sp pc => rw [pc]; bv_omega

/-- An instruction that was fetched pushes at most 0x1000 and leaves the live entries. -/
theorem Transfer.liveReturns (h : Transfer s t) (hs : s.Inv) (hfetch : s.pc.toNat ≤ 0xFFE) :
    ∀ n : Fin 16, n.val < t.sp.val → t.stack[n.val].toNat ≤ 0x1000 := by
  intro n hn
  cases h with
  | onward keep | jump _ keep =>
    rw [keep.sp] at hn
    simpa only [keep.stack] using hs.liveReturns n hn
  | call nnn room mem stack sp =>
    simp only [stack, Vector.getElem_set]
    split
    · bv_omega
    · exact hs.liveReturns n (by omega)
  | ret _ mem stack sp => simpa only [stack] using hs.liveReturns n (by omega)
  | store base bs low high mem stack sp =>
    rw [sp] at hn
    simpa only [stack] using hs.liveReturns n hn

/-- The timer phase sets SND_END exactly where it brings ST to 0 (40_step_and_dispatch.md R90). -/
theorem State.timerPhase_soundEnded (s : State) (h : s.timerPhase.sndEnd = true) :
    s.timerPhase.st = 0 := by
  have hst : s.st = 1 := by simpa using h
  simp [hst]

/-! ### The invariant -/

theorem State.inv_reset : State.reset.Inv :=
  ⟨Memory.wf_reset, fun _ _ => rfl, by decide, by decide, by decide⟩

/-- The invariant looks at memory, PC, the stack and the sound timer only. -/
theorem State.Inv.of_sameMemAndStack (hs : s.Inv) (keep : SameMemAndStack s t) (pc : t.pc = s.pc)
    (st : t.st = s.st) (sndEnd : t.sndEnd = s.sndEnd) : t.Inv where
  memWf := keep.mem ▸ hs.memWf
  lowIntact := keep.mem ▸ hs.lowIntact
  pcBound := pc ▸ hs.pcBound
  liveReturns n hn := by
    rw [keep.sp] at hn
    simpa only [keep.stack] using hs.liveReturns n hn
  soundEnded h := st.trans (hs.soundEnded (sndEnd ▸ h))

theorem State.Inv.clearDraw (hs : s.Inv) : s.clearDraw.Inv :=
  hs.of_sameMemAndStack ⟨rfl, rfl, rfl⟩ rfl rfl rfl

theorem State.Inv.setRndInputs (hs : s.Inv) (l : List Byte) : (s.setRndInputs l).Inv :=
  hs.of_sameMemAndStack ⟨rfl, rfl, rfl⟩ rfl rfl rfl

/-- An instruction that was fetched may break the clause on the sound timer (LD ST), which the timer phase
restores. -/
theorem Transfer.inv_timerPhase (h : Transfer s u) (hs : s.Inv) (hfetch : s.pc.toNat ≤ 0xFFE) :
    u.timerPhase.Inv where
  memWf := h.memWf hs
  lowIntact := h.lowIntact hs
  pcBound := h.pcBound hs hfetch
  liveReturns := h.liveReturns hs hfetch
  soundEnded := u.timerPhase_soundEnded

theorem step_keeps_inv (hs : s.Inv) (h : step s = .next t) : t.Inv := by
  obtain ⟨-, rfl⟩ | ⟨-, i, u, hi, hu, rfl⟩ := step_eq_next_cases h
  · exact hs
  · obtain ⟨op, hop, -⟩ := State.fetchDecode_eq_ok.1 hi
    obtain ⟨hfetch, -⟩ := State.fetch_eq_ok.1 hop
    exact (exec_transfer hu).inv_timerPhase hs.clearDraw hfetch

/-! ### The host's operations -/

theorem hostReset_inv (s : State) : (hostReset s).Inv :=
  State.inv_reset.of_sameMemAndStack ⟨rfl, rfl, rfl⟩ rfl rfl rfl

theorem loadImage_eq_next {image : List Byte} :
    loadImage image s = .next t ↔ image.length ≤ Config.maxImage ∧
      t = s.setMem (s.mem.writeBlock Config.progBase image) := by
  by_cases h : image.length ≤ Config.maxImage
  · simp [loadImage, Nat.not_lt.2 h, h, eq_comm (a := t)]
  · simp [loadImage, Nat.not_le.1 h, h]

/-- An image that `load` accepts lies between PROG_BASE and the end of memory (20_memory.md R48). -/
theorem loadImage_keeps_inv {image : List Byte} (hs : s.Inv) (h : loadImage image s = .next t) :
    t.Inv := by
  obtain ⟨hlen, rfl⟩ := loadImage_eq_next.1 h
  exact {
    memWf := Memory.wf_writeBlock hs.memWf (by
      simp only [Config.maxImage, Config.progBase, Config.memSize] at hlen ⊢; omega)
    lowIntact := read_writeBlock_lowIntact (Nat.le_refl _) hs.lowIntact
    pcBound := hs.pcBound
    liveReturns := hs.liveReturns
    soundEnded := hs.soundEnded }

/-- An operation that ends in an error leaves the state before it (60_exceptions.md R196). -/
theorem settle_keeps_inv {o : Host.Outcome State Fault Refusal} (hs : s.Inv)
    (ho : ∀ t, o = .next t → t.Inv) : (settle s o).2.Inv := by
  cases o with
  | next t => exact ho t rfl
  | fault f | refused r => exact hs

theorem performStep_keeps_inv (r : Byte) (hs : s.Inv) : (performStep r s).2.Inv := by
  obtain h | ⟨t, ht, -, h⟩ := performStep_cases (s := s) r
  · rwa [h]
  · rw [h]
    exact (step_keeps_inv (hs.setRndInputs [r]) ht).setRndInputs _

theorem deliverKey_keeps_inv (key : Key) (hs : s.Inv) : (deliverKey key s).Inv := by
  unfold deliverKey
  split
  · exact hs.of_sameMemAndStack ⟨rfl, rfl, rfl⟩ rfl rfl rfl
  · exact hs.of_sameMemAndStack ⟨rfl, rfl, rfl⟩ rfl rfl rfl

theorem perform_keeps_inv (o : Operation) (hs : s.Inv) : (perform o s).2.Inv := by
  cases o with
  | reset => exact hostReset_inv s
  | load image => exact settle_keeps_inv hs fun _ => loadImage_keeps_inv hs
  | step r => exact performStep_keeps_inv r hs
  | deliverKey key => exact deliverKey_keeps_inv key hs

/-- What every operation of the host keeps, every script keeps. -/
theorem runScript_keeps {P : State → Prop} (hP : ∀ o s, P s → P (perform o s).2)
    (os : List Operation) (hs : P s) : P (runScript os s) := by
  induction os generalizing s with
  | nil => exact hs
  | cons o os ih => exact ih (hP o s hs)

end Sys2Proof.Machine

namespace Sys2Proof.Claims

/-- Settles O52: each operation of the host keeps the invariant, so every script of them does. -/
theorem hostScriptsKeepTheInvariant : Obligations.HostScriptsKeepTheInvariant := by
  unfold Obligations.HostScriptsKeepTheInvariant
  exact fun os _ hs => Machine.runScript_keeps (fun o _ => Machine.perform_keeps_inv o) os hs

end Sys2Proof.Claims
end

section
/-! SUPPORT. The invariant of 10_state.md section 1 over one step. -/

namespace Sys2Proof.Claims

/-- Settles O51: a completed instruction keeps the invariant but for the sound timer's clause, which the
timer phase restores. -/
theorem stepKeepsTheInvariant : Obligations.StepKeepsTheInvariant := by
  unfold Obligations.StepKeepsTheInvariant
  exact fun _ _ => Machine.step_keeps_inv

end Sys2Proof.Claims
end

section
/-! SUPPORT. The stack entries that stay live over an operation of the host (10_state.md R16). -/

namespace Sys2Proof.Machine

variable {s t u : State}

/-- Every entry of the stack that is live in both states is the same in both. -/
def LiveKept (s t : State) : Prop :=
  ∀ n : Fin 16, n.val < s.sp.val → n.val < t.sp.val → t.stack[n.val] = s.stack[n.val]

theorem LiveKept.of_stack_eq (h : t.stack = s.stack) : LiveKept s t := fun n _ _ => by rw [h]

/-- Only CALL writes the stack, at SP, above the live entries (41_control_flow.md R103). -/
theorem Transfer.liveKept (h : Transfer s t) : LiveKept s t := by
  cases h with
  | onward keep | jump _ keep => exact .of_stack_eq keep.stack
  | ret _ _ stack | store _ _ _ _ _ stack => exact .of_stack_eq stack
  | call nnn room mem stack =>
    intro n hs _
    have hne : s.sp.val ≠ n.val := by omega
    simp only [stack, Vector.getElem_set_ne _ _ hne]

theorem step_liveKept (h : step s = .next t) : LiveKept s t := by
  obtain ⟨-, rfl⟩ | ⟨-, i, u, -, hu, rfl⟩ := step_eq_next_cases h
  · exact .of_stack_eq rfl
  · exact (exec_transfer hu).liveKept

theorem loadImage_settle_stack (image : List Byte) (s : State) :
    (settle s (loadImage image s)).2.stack = s.stack := by
  unfold loadImage
  split
  · rfl
  · rfl

theorem performStep_liveKept (r : Byte) (s : State) : LiveKept s (performStep r s).2 := by
  obtain h | ⟨t, ht, -, h⟩ := performStep_cases (s := s) r
  · exact .of_stack_eq (by rw [h])
  · rw [h]
    exact (step_liveKept ht :)

theorem deliverKey_stack (key : Key) (s : State) : (deliverKey key s).stack = s.stack := by
  unfold deliverKey
  split
  · rfl
  · rfl

theorem perform_liveKept {o : Operation} (s : State) (ho : o ≠ .reset) :
    LiveKept s (perform o s).2 := by
  cases o with
  | reset => exact absurd rfl ho
  | load image => exact .of_stack_eq (loadImage_settle_stack image s)
  | step r => exact performStep_liveKept r s
  | deliverKey key => exact .of_stack_eq (deliverKey_stack key s)

end Sys2Proof.Machine

namespace Sys2Proof.Claims

/-- Settles O57: of the operations but `reset` only a step that executes CALL writes the stack, and it
writes the entry at SP. -/
theorem liveStackEntriesAreKept : Obligations.LiveStackEntriesAreKept := by
  unfold Obligations.LiveStackEntriesAreKept
  exact fun _ s n ho => Machine.perform_liveKept s ho n

end Sys2Proof.Claims
end

section
/-! SUPPORT. Two states that differ only where nothing looks stay so over every operation of the host, and
give the same outcomes (10_state.md R16, R20). -/

namespace Sys2Proof.Machine

variable {s t u : State}

/-! ### Where the two states differ -/

/-- The state with other stack entries and another KWREG. -/
def State.withDead (s : State) (k : Vector Word 16) (r : Reg) : State := (s.setStack k).setKwReg r

theorem SameLive.refl (s : State) : SameLive s s :=
  ⟨rfl, rfl, rfl, rfl, rfl, fun _ _ => rfl, rfl, rfl, rfl, rfl, rfl, fun _ => rfl, rfl, rfl, rfl, rfl⟩

/-- Nothing but the stack entries and KWREG tells the two states apart. -/
theorem SameLive.eq_withDead (h : SameLive s t) : t = s.withDead t.stack t.kwReg := by
  obtain ⟨hmem, hregs, hi, hpc, hsp, -, hfb, hdt, hst, hkeys, hkw, -, hdraw, hsnd, hrin, hrct⟩ := h
  cases s
  cases t
  simp_all [State.withDead, State.setStack, State.setKwReg]

/-- A change of other pieces of state, made in both states alike, keeps what they differ in dead. -/
theorem SameLive.frame {k : Vector Word 16} {r : Reg} (h : SameLive s (s.withDead k r))
    (stack : u.stack = s.stack) (sp : u.sp = s.sp) (kw : u.kw = s.kw) (kwReg : u.kwReg = s.kwReg) :
    SameLive u (u.withDead k r) where
  mem := rfl
  regs := rfl
  i := rfl
  pc := rfl
  sp := rfl
  live n hn := by
    simp only [stack]
    exact h.live n (sp ▸ hn)
  fb := rfl
  dt := rfl
  st := rfl
  keys := rfl
  kw := rfl
  kwReg hu := (h.kwReg (kw ▸ hu)).trans kwReg.symm
  draw := rfl
  sndEnd := rfl
  rndInputs := rfl
  rndCount := rfl

/-! ### Outcomes that differ only there -/

/-- The same kind of end: next states that differ only where nothing looks, or the same reason to stop. -/
inductive SameOutcome : Host.Outcome State Fault Refusal → Host.Outcome State Fault Refusal → Prop where
  /-- Both answer a next state. -/
  | next {u v : State} (h : SameLive u v) : SameOutcome (.next u) (.next v)
  /-- Both stop with the same error. -/
  | fault (f : Fault) : SameOutcome (.fault f) (.fault f)
  /-- Both are refused for the same reason. -/
  | refused (q : Refusal) : SameOutcome (.refused q) (.refused q)

variable {o p : Host.Outcome State Fault Refusal}

theorem SameOutcome.requireInRange (kind : RangeKind) (last : Nat) (h : SameOutcome o p) :
    SameOutcome (requireInRange kind last o) (requireInRange kind last p) := by
  unfold Machine.requireInRange
  split
  · exact .fault _
  · exact h

theorem SameOutcome.requireStorable (low : Bool) (base last : Nat) (h : SameOutcome o p) :
    SameOutcome (requireStorable low base last o) (requireStorable low base last p) := by
  refine .requireInRange _ _ ?_
  unfold requireWritable
  split
  · exact .fault _
  · exact h

theorem SameOutcome.requireIndex (kind : RangeKind) (b : Byte)
    {c d : Fin 16 → Host.Outcome State Fault Refusal} (h : ∀ n, SameOutcome (c n) (d n)) :
    SameOutcome (requireIndex kind b c) (requireIndex kind b d) := by
  unfold Machine.requireIndex
  split
  · exact h _
  · exact .fault _

/-! ### Instructions -/

/-- CALL writes the entry at SP before it becomes live (41_control_flow.md R103). -/
theorem execCall_sameOutcome (nnn : Imm12) (h : SameLive s t) :
    SameOutcome (execCall nnn s) (execCall nnn t) := by
  unfold execCall
  by_cases hsp : s.sp.val < 16
  · rw [State.push_of_lt hsp, State.push_of_lt (h.sp ▸ hsp)]
    apply SameOutcome.next
    refine { h with pc := rfl, sp := by simp [h.sp], live := fun n hn => ?_ }
    simp only [State.setPc_stack, State.setSp_stack, State.setStack_stack, Vector.getElem_set, h.sp,
      h.pc]
    split
    · rfl
    · exact h.live n (by simp at hn; omega)
  · rw [State.push_of_full (by omega), State.push_of_full (by rw [h.sp]; omega)]
    exact .fault _

/-- RET reads the live entry below SP (41_control_flow.md R101). -/
theorem execRet_sameOutcome (h : SameLive s t) : SameOutcome (execRet s) (execRet t) := by
  unfold execRet
  by_cases hsp : 0 < s.sp.val
  · have top := h.live ⟨s.sp.val - 1, by omega⟩ (by simp; omega)
    rw [State.pop_of_pos hsp, State.pop_of_pos (h.sp ▸ hsp)]
    apply SameOutcome.next
    refine { h with pc := ?_, sp := by simp [h.sp], live := fun n hn => ?_ }
    · simpa [h.sp] using top
    · exact h.live n (by simp at hn; omega)
  · rw [State.pop_of_empty (by omega), State.pop_of_empty (by rw [h.sp]; omega)]
    exact .fault _

/-- LD Vx, K sets KWREG as it starts the wait (44_keys_and_timers.md R152). -/
theorem execLdVxK_sameOutcome (x : Reg) (h : SameLive s t) :
    SameOutcome (execLdVxK x s) (execLdVxK x t) := by
  apply SameOutcome.next
  exact { h with pc := by simp [h.pc], kw := rfl, kwReg := fun _ => rfl }

@[simp] theorem State.rndDrawn_withDead (s : State) (k : Vector Word 16) (r : Reg) :
    (s.withDead k r).rndDrawn = s.rndDrawn.withDead k r := by
  unfold State.rndDrawn
  cases h : s.rndInputs <;> simp [State.withDead, h] <;> rfl

/-- CALL, RET and LD Vx, K apart, an instruction neither reads nor writes the stack and KWREG. -/
theorem exec_sameOutcome (i : Instr) (h : SameLive s t) : SameOutcome (exec i s) (exec i t) := by
  obtain ⟨k, r, rfl⟩ : ∃ k r, t = s.withDead k r := ⟨_, _, h.eq_withDead⟩
  cases i with
  | call nnn => exact execCall_sameOutcome nnn h
  | ret => exact execRet_sameOutcome h
  | ldVxK x => exact execLdVxK_sameOutcome x h
  | sys nnn => exact .fault _
  | cls | jp nnn | seByte x kk | sneByte x kk | seReg x y | ldByte x kk | addByte x kk | ldReg x y
  | orReg x y | andReg x y | xorReg x y | addReg x y | subReg x y | shr x y | subn x y | shl x y
  | sneReg x y | ldI nnn | jpV0 nnn | ldVxDt x | ldDtVx x | ldStVx x | addI x =>
    exact .next (h.frame rfl rfl rfl rfl)
  | rnd x kk =>
    simp only [exec, execRnd, State.rndDrawn_withDead]
    exact .next (h.frame s.rndDrawn_stack s.rndDrawn_sp s.rndDrawn_kw s.rndDrawn_kwReg)
  | drw x y n =>
    simp only [exec, execDrw]
    split
    · exact .next (h.frame rfl rfl rfl rfl)
    · exact .requireInRange _ _ (.next (h.frame rfl rfl rfl rfl))
  | skp x | sknp x | ldF x =>
    simp only [exec, execSkp, execSknp, execLdF]
    apply SameOutcome.requireIndex
    exact fun _ => .next (h.frame rfl rfl rfl rfl)
  | ldB x | storeRegs x =>
    exact .requireStorable _ _ _ (.next (h.frame rfl rfl rfl rfl))
  | loadRegs x =>
    exact .requireInRange _ _ (.next (h.frame rfl rfl rfl rfl))

/-! ### Steps -/

theorem finishStep_sameOutcome (h : SameOutcome o p) : SameOutcome (finishStep o) (finishStep p) := by
  cases h with
  | next h =>
    apply SameOutcome.next
    exact { h with dt := by simp [h.dt], st := by simp [h.st], sndEnd := by simp [h.st] }
  | fault f => exact .fault f
  | refused q => exact .refused q

/-- Fetching and decoding look at memory and PC only (40_step_and_dispatch.md R82). -/
theorem SameLive.fetchDecode (h : SameLive s t) : t.fetchDecode = s.fetchDecode := by
  rw [h.eq_withDead]
  rfl

theorem step_sameOutcome (h : SameLive s t) : SameOutcome (step s) (step t) := by
  unfold step State.blocked
  rw [h.kw, h.fetchDecode]
  split
  · exact .next h
  · cases s.fetchDecode with
    | error f => exact .fault f
    | ok i =>
      apply finishStep_sameOutcome
      apply exec_sameOutcome
      exact { h with draw := rfl }

/-! ### The host's operations -/

/-- The same outcome, and states left that differ only where nothing looks. -/
structure SameResult (a b : Result × State) : Prop where
  outcome : a.1 = b.1
  state : SameLive a.2 b.2

theorem settle_sameResult (h : SameLive s t) (ho : SameOutcome o p) :
    SameResult (settle s o) (settle t p) := by
  cases ho with
  | next hu => exact ⟨rfl, hu⟩
  | fault f | refused q => exact ⟨rfl, h⟩

theorem loadImage_sameOutcome (image : List Byte) (h : SameLive s t) :
    SameOutcome (loadImage image s) (loadImage image t) := by
  unfold loadImage
  split
  · exact .fault _
  · exact .next { h with mem := by simp [h.mem] }

theorem performStep_sameResult (r : Byte) (h : SameLive s t) :
    SameResult (performStep r s) (performStep r t) := by
  have hstep : SameOutcome (step (s.setRndInputs [r])) (step (t.setRndInputs [r])) :=
    step_sameOutcome { h with rndInputs := rfl }
  unfold performStep State.blocked
  rw [h.kw]
  split
  · exact ⟨rfl, h⟩
  · generalize step (s.setRndInputs [r]) = o, step (t.setRndInputs [r]) = p at hstep
    cases hstep with
    | next hu => exact ⟨rfl, { hu with rndInputs := h.rndInputs }⟩
    | fault f | refused q => exact ⟨rfl, h⟩

/-- A delivery reads KWREG only to end a wait (44_keys_and_timers.md R156). -/
theorem deliverKey_sameLive (key : Key) (h : SameLive s t) :
    SameLive (deliverKey key s) (deliverKey key t) := by
  unfold deliverKey
  rw [h.kw]
  split
  · next hkw =>
    rw [h.kwReg hkw]
    exact { h with
      regs := by simp [State.setV, State.setKey, State.setKw, State.setKeys, h.regs]
      keys := by simp [State.setKey, h.keys]
      kw := rfl
      kwReg := fun _ => h.kwReg hkw }
  · exact { h with keys := by simp [State.setKey, h.keys] }

theorem hostReset_sameLive (h : SameLive s t) : SameLive (hostReset s) (hostReset t) := by
  unfold hostReset
  rw [h.rndInputs, h.rndCount]
  exact .refl _

theorem perform_sameResult (o : Operation) (h : SameLive s t) :
    SameResult (perform o s) (perform o t) := by
  cases o with
  | reset => exact ⟨rfl, hostReset_sameLive h⟩
  | load image => exact settle_sameResult h (loadImage_sameOutcome image h)
  | step r => exact performStep_sameResult r h
  | deliverKey key => exact ⟨rfl, deliverKey_sameLive key h⟩

theorem runScript_sameLive (os : List Operation) (h : SameLive s t) :
    SameLive (runScript os s) (runScript os t) := by
  induction os generalizing s t with
  | nil => exact h
  | cons o os ih => exact ih (perform_sameResult o h).state

end Sys2Proof.Machine

namespace Sys2Proof.Claims

/-- Settles O53: every operation keeps `SameLive` and gives the same outcome to both states. -/
theorem deadStateIsNeverRead : Obligations.DeadStateIsNeverRead := by
  unfold Obligations.DeadStateIsNeverRead
  exact fun os s t h =>
    ⟨Machine.runScript_sameLive os h, fun o => (Machine.perform_sameResult o h).outcome⟩

end Sys2Proof.Claims
end

section
/-! SUPPORT. What a completed instruction writes: the column "Written by" of 10_state.md section 1, the draw
flag over a step, and VF. -/

namespace Sys2Proof.Claims

open Machine

/-- Settles O14: each constructor in turn, by the one state its instruction answers. -/
theorem stateIsWrittenOnlyByItsListedInstructions :
    Obligations.StateIsWrittenOnlyByItsListedInstructions := by
  unfold Obligations.StateIsWrittenOnlyByItsListedInstructions
  intro i s t h
  cases i with
  | sys nnn => exact absurd h raise_ne_next
  | ret =>
    obtain ⟨-, rfl⟩ := execRet_eq_next.1 h
    simp
  | call nnn =>
    obtain ⟨-, rfl⟩ := execCall_eq_next.1 h
    simp
  | skp x =>
    obtain ⟨k, -, rfl⟩ := execSkp_eq_next.1 h
    simp
  | sknp x =>
    obtain ⟨k, -, rfl⟩ := execSknp_eq_next.1 h
    simp
  | drw x y n =>
    obtain ⟨-, rfl⟩ := execDrw_eq_next.1 h
    simp [State.drawSprite_eq]
  | ldF x =>
    obtain ⟨d, -, rfl⟩ := execLdF_eq_next.1 h
    simp
  | loadRegs x =>
    obtain ⟨-, rfl⟩ := execLoadRegs_eq_next.1 h
    simp
  | ldB x =>
    obtain ⟨-, -, rfl⟩ := execLdB_eq_next.1 h
    simp
  | storeRegs x =>
    obtain ⟨-, -, rfl⟩ := execStoreRegs_eq_next.1 h
    simp
  | cls | jp nnn | jpV0 nnn | seByte x kk | sneByte x kk | seReg x y | sneReg x y | ldByte x kk
  | addByte x kk | ldReg x y | orReg x y | andReg x y | xorReg x y | addReg x y | subReg x y
  | shr x y | subn x y | shl x y | ldI nnn | rnd x kk | ldVxDt x | ldVxK x | ldDtVx x | ldStVx x
  | addI x =>
    cases h
    simp

end Sys2Proof.Claims

namespace Sys2Proof.Machine

variable {s t : State}

/-- An instruction that draws leaves DRAW set (43_draw.md R140, R141). -/
theorem exec_cls_draw (h : exec .cls s = .next t) : t.draw = true := by
  cases h
  rfl

theorem exec_drw_draw {x y : Reg} {n : Nibble} (h : exec (.drw x y n) s = .next t) :
    t.draw = true := by
  obtain ⟨-, rfl⟩ := execDrw_eq_next.1 h
  rfl

/-- A step that is not blocked executes the instruction its word decodes to, with DRAW cleared before and
the timer phase after (40_step_and_dispatch.md R80). -/
theorem step_of_fetches {op : Word} {i : Instr} (hf : Claims.Fetches s op) (hd : decodeWord op = .ok i)
    (h : step s = .next t) : ∃ u, exec i s.clearDraw = .next u ∧ t = u.timerPhase := by
  obtain ⟨hkw, hpc, hop⟩ := hf
  have hi : s.fetchDecode = .ok i :=
    State.fetchDecode_eq_ok.2 ⟨op, State.fetch_eq_ok.2 ⟨hpc, hop⟩, hd⟩
  obtain ⟨hblocked, -⟩ | ⟨-, j, u, hj, hu, rfl⟩ := step_eq_next_cases h
  · simp [hkw] at hblocked
  · obtain rfl : i = j := by simpa [hi] using hj
    exact ⟨u, hu, rfl⟩

end Sys2Proof.Machine

namespace Sys2Proof.Claims

open Machine

/-- Settles O12: DRAW is 0 before the instruction (R85), so it is 1 after exactly where one of its two
writers wrote it, and both write 1. -/
theorem drawFlagIsSetExactlyByClsAndDrw : Obligations.DrawFlagIsSetExactlyByClsAndDrw := by
  unfold Obligations.DrawFlagIsSetExactlyByClsAndDrw
  intro s t op i hf hd h
  obtain ⟨u, hu, rfl⟩ := step_of_fetches hf hd h
  rw [State.timerPhase_draw]
  constructor
  · intro hdraw
    obtain ⟨-, -, -, -, -, written, -⟩ := stateIsWrittenOnlyByItsListedInstructions i _ u hu
    exact written (by simp [hdraw])
  · rintro (rfl | ⟨x, y, n, rfl⟩)
    · exact exec_cls_draw hu
    · exact exec_drw_draw hu

end Sys2Proof.Claims

namespace Sys2Proof.Machine

variable {s t : State}

theorem flagByte_eq_zero_or_one (c : Bool) : flagByte c = 0 ∨ flagByte c = 1 := by
  cases c
  · exact .inl rfl
  · exact .inr rfl

/-- LD Vx, [I] loads no register above Vx (45_index_and_memory.md R176). -/
theorem State.v_setRegs_writeRegBlock_of_gt (s : State) (bs : List Byte) {q : Reg}
    (h : bs.length ≤ q.val) : (s.setRegs (writeRegBlock s.regs 0 bs)).v q = s.v q := by
  have hnot : ¬ q.val < bs.length := by omega
  simp [State.v, getElem_writeRegBlock, hnot]

end Sys2Proof.Machine

namespace Sys2Proof.Claims

open Machine

/-- VF is 0 or 1 after an instruction that writes the flag (10_state.md R11). -/
theorem exec_writesFlag_vf {i : Instr} {s t : State} (hi : WritesFlag i) (h : exec i s = .next t) :
    t.v vf = 0 ∨ t.v vf = 1 := by
  have written : ∃ c, t.v vf = flagByte c := by
    cases i with
    | addReg x y | subReg x y | shr x y | subn x y | shl x y =>
      cases h
      exact ⟨_, by rw [State.advance_v, State.v_writeFlagged, if_pos rfl]⟩
    | drw x y n =>
      obtain ⟨-, rfl⟩ := execDrw_eq_next.1 h
      exact ⟨_, by rw [State.advance_v, State.drawSprite_eq, State.setDraw_v, State.v_setV_self]⟩
    | _ => exact hi.elim
  obtain ⟨c, hc⟩ := written
  exact hc ▸ flagByte_eq_zero_or_one c

/-- VF is as before after every instruction that neither writes the flag nor names VF (10_state.md R11). -/
theorem exec_vf_unchanged {i : Instr} {s t : State} (hw : ¬ WritesFlag i) (hn : ¬ NamesVF i)
    (h : exec i s = .next t) : t.v vf = s.v vf := by
  cases i with
  | addReg x y | subReg x y | shr x y | subn x y | shl x y | drw x y n => exact absurd trivial hw
  | sys nnn => exact absurd h raise_ne_next
  | ldByte x kk | addByte x kk | ldReg x y | orReg x y | andReg x y | xorReg x y | ldVxDt x =>
    cases h
    exact State.v_setV_of_ne _ _ (Ne.symm hn)
  | rnd x kk =>
    cases h
    exact (State.v_setV_of_ne _ _ (Ne.symm hn)).trans (s.rndDrawn_v vf)
  | loadRegs x =>
    obtain ⟨-, rfl⟩ := execLoadRegs_eq_next.1 h
    have hx : x ≠ vf := hn
    refine s.v_setRegs_writeRegBlock_of_gt _ ?_
    rw [Memory.length_readBlock]
    simp only [vf, ne_eq, Fin.ext_iff] at hx ⊢
    omega
  | ret =>
    obtain ⟨-, rfl⟩ := execRet_eq_next.1 h
    rfl
  | call nnn =>
    obtain ⟨-, rfl⟩ := execCall_eq_next.1 h
    rfl
  | skp x =>
    obtain ⟨k, -, rfl⟩ := execSkp_eq_next.1 h
    rfl
  | sknp x =>
    obtain ⟨k, -, rfl⟩ := execSknp_eq_next.1 h
    rfl
  | ldF x =>
    obtain ⟨d, -, rfl⟩ := execLdF_eq_next.1 h
    rfl
  | ldB x =>
    obtain ⟨-, -, rfl⟩ := execLdB_eq_next.1 h
    rfl
  | storeRegs x =>
    obtain ⟨-, -, rfl⟩ := execStoreRegs_eq_next.1 h
    rfl
  | cls | jp nnn | jpV0 nnn | seByte x kk | sneByte x kk | seReg x y | sneReg x y | ldI nnn | ldVxK x
  | ldDtVx x | ldStVx x | addI x =>
    cases h
    rfl

/-- Settles O15: the flag writers by the byte they leave, the others by what they leave alone. -/
theorem onlySixInstructionsWriteTheFlag : Obligations.OnlySixInstructionsWriteTheFlag := by
  unfold Obligations.OnlySixInstructionsWriteTheFlag
  intro i s t h
  refine ⟨fun hi => exec_writesFlag_vf hi h, fun hne => ?_⟩
  by_contra hnot
  obtain ⟨hw, hn⟩ := not_or.1 hnot
  exact hne (exec_vf_unchanged hw hn h)

end Sys2Proof.Claims
end

section
/-! SUPPORT. The framebuffer as the list of its pixels (10_state.md R17, R25). -/

namespace Sys2Proof.Machine

/-- The pixels of a row, from the left. -/
def rowPixels (row : BitVec 64) : List Bool := (List.range 64).map row.getLsbD

@[simp] theorem length_rowPixels (row : BitVec 64) : (rowPixels row).length = 64 := by
  simp [rowPixels]

theorem getD_rowPixels (row : BitVec 64) {x : Nat} (hx : x < 64) :
    (rowPixels row).getD x false = row.getLsbD x := by
  simp [rowPixels, hx]

/-- Each row before row y takes 64 places. -/
theorem getD_flatMap_rowPixels (rows : List (BitVec 64)) {x y : Nat} (hx : x < 64) (hy : y < rows.length) :
    (rows.flatMap rowPixels).getD (y * 64 + x) false = rows[y].getLsbD x := by
  induction rows generalizing y with
  | nil => simp at hy
  | cons row rows ih =>
    rw [List.flatMap_cons]
    cases y with
    | zero =>
      rw [List.getD_append _ _ _ _ (by simp; omega), Nat.zero_mul, Nat.zero_add, getD_rowPixels row hx]
      rfl
    | succ y =>
      rw [List.getD_append_right _ _ _ _ (by simp; omega), length_rowPixels,
        show (y + 1) * 64 + x - 64 = y * 64 + x by omega]
      exact ih (by simpa using hy)

theorem FrameBuffer.pixels_eq (f : FrameBuffer) : f.pixels = f.toList.flatMap rowPixels := rfl

theorem FrameBuffer.length_pixels (f : FrameBuffer) : f.pixels.length = 2048 := by
  simp [FrameBuffer.pixels_eq, List.length_flatMap]

theorem FrameBuffer.getD_pixels (f : FrameBuffer) {x y : Nat} (hx : x < 64) (hy : y < 32) :
    f.pixels.getD (y * 64 + x) false = f.pixel x y := by
  rw [FrameBuffer.pixels_eq, getD_flatMap_rowPixels _ hx (by simpa using hy)]
  simp [FrameBuffer.pixel, Nat.mod_eq_of_lt hx, Nat.mod_eq_of_lt hy]

end Sys2Proof.Machine

namespace Sys2Proof.Claims

/-- Settles O54: the pixels by their row and column, the other outputs field by field. -/
theorem outputsShowTheState : Obligations.OutputsShowTheState := by
  unfold Obligations.OutputsShowTheState
  exact fun s => ⟨s.fb.length_pixels, fun _ hx _ hy => s.fb.getD_pixels hx hy, rfl, bne_iff_ne, rfl, rfl⟩

end Sys2Proof.Claims
end

section
/-! SUPPORT. The bytes below PROG_BASE, which no operation of the host but `reset` writes (20_memory.md R46,
R48). -/

namespace Sys2Proof.Machine

variable {s t u : State}

/-- Every byte below PROG_BASE reads in `t` as it does in `s`. -/
def LowKept (s t : State) : Prop := ∀ a < 0x200, t.mem.read a = s.mem.read a

theorem LowKept.of_mem_eq (h : t.mem = s.mem) : LowKept s t := fun _ _ => by rw [h]

theorem LowKept.of_writeBlock {base : Nat} {bs : List Byte} (hbase : 0x200 ≤ base)
    (h : t.mem = s.mem.writeBlock base bs) : LowKept s t := fun a ha => by
  rw [h]
  exact Memory.read_writeBlock_of_outside (.inl (by omega))

theorem LowKept.trans (h : LowKept s t) (h' : LowKept t u) : LowKept s u := fun a ha =>
  (h' a ha).trans (h a ha)

/-- Only a store writes memory, and its protection check keeps it off these bytes (20_memory.md R46). -/
theorem Transfer.lowKept (h : Transfer s t) : LowKept s t := by
  cases h with
  | onward keep | jump _ keep => exact .of_mem_eq keep.mem
  | call _ _ mem | ret _ mem => exact .of_mem_eq mem
  | store base bs low high mem => exact .of_writeBlock low mem

theorem step_lowKept (h : step s = .next t) : LowKept s t := by
  obtain ⟨-, rfl⟩ | ⟨-, i, u, -, hu, rfl⟩ := step_eq_next_cases h
  · exact .of_mem_eq rfl
  · exact (exec_transfer hu).lowKept

/-- A step finds on its `rnd` input the host's byte, and the bytes listed before it are put back after it;
neither touches memory. -/
theorem performStep_lowKept (r : Byte) (s : State) : LowKept s (performStep r s).2 := by
  obtain h | ⟨t, ht, -, h⟩ := performStep_cases (s := s) r
  · exact .of_mem_eq (by rw [h])
  · rw [h]
    exact (step_lowKept ht :)

/-- `load` places its image from PROG_BASE on (20_memory.md R48). -/
theorem settle_loadImage_lowKept (image : List Byte) (s : State) :
    LowKept s (settle s (loadImage image s)).2 := by
  unfold loadImage
  split
  · exact .of_mem_eq rfl
  · exact .of_writeBlock (Nat.le_refl _) rfl

theorem deliverKey_mem (key : Key) (s : State) : (deliverKey key s).mem = s.mem := by
  unfold deliverKey
  split
  · rfl
  · rfl

theorem perform_lowKept {o : Operation} (s : State) (ho : o ≠ .reset) : LowKept s (perform o s).2 := by
  cases o with
  | reset => exact absurd rfl ho
  | load image => exact settle_loadImage_lowKept image s
  | step r => exact performStep_lowKept r s
  | deliverKey key => exact .of_mem_eq (deliverKey_mem key s)

theorem runScript_lowKept {os : List Operation} (s : State) (hos : ∀ o ∈ os, o ≠ .reset) :
    LowKept s (runScript os s) := by
  induction os generalizing s with
  | nil => exact .of_mem_eq rfl
  | cons o os ih =>
    obtain ⟨ho, hos⟩ := List.forall_mem_cons.1 hos
    exact (perform_lowKept s ho).trans (ih _ hos)

end Sys2Proof.Machine

namespace Sys2Proof.Claims

/-- Settles O47: a store is checked against PROG_BASE and `load` starts there, so each operation of the
script keeps the bytes below it. -/
theorem memoryBelowTheProgramNeverChanges : Obligations.MemoryBelowTheProgramNeverChanges := by
  unfold Obligations.MemoryBelowTheProgramNeverChanges
  exact fun _ s hos => Machine.runScript_lowKept s hos

end Sys2Proof.Claims
end

section
/-! SUPPORT. What LD [I], Vx leaves in memory, and the fetch of it (20_memory.md R42, R51). -/

namespace Sys2Proof.Machine

variable {s t : State}

/-- Register k of the block stands at I + k (45_index_and_memory.md R175). -/
theorem exec_storeRegs_read {x : Reg} (h : exec (.storeRegs x) s = .next t) {k : Nat}
    (hk : k ≤ x.val) : t.mem.read (s.addr k) = s.v ⟨k, by omega⟩ := by
  obtain ⟨-, -, rfl⟩ := execStoreRegs_eq_next.1 h
  have hlt : k < (s.regBlock x).length := by rw [State.length_regBlock]; omega
  exact (Memory.read_writeBlock_of_lt hlt).trans (s.getElem_regBlock x k hlt)

end Sys2Proof.Machine

namespace Sys2Proof.Claims

open Machine

/-- Settles O45: the block ends inside memory, so PC is a fetch address where k + 1 ≤ x, and both bytes read
there are registers of the block. -/
theorem storedWordIsTheNextFetched : Obligations.StoredWordIsTheNextFetched := by
  unfold Obligations.StoredWordIsTheNextFetched
  intro x s t k h hpc hk
  obtain ⟨hlast, -, -⟩ := execStoreRegs_eq_next.1 h
  refine State.fetch_eq_ok.2 ⟨?_, ?_⟩
  · simp only [State.addr] at hpc hlast
    omega
  · rw [hpc, exec_storeRegs_read h (by omega)]
    exact congrArg _ (exec_storeRegs_read h hk).symm

end Sys2Proof.Claims
end

section
/-! SUPPORT. The two ends of `load` (20_memory.md R48). -/

namespace Sys2Proof.Machine

theorem State.setMem_unchangedBut (s : State) (m : Memory) : UnchangedBut [.mem] s (s.setMem m) where
  v _ _ := rfl
  mem h := absurd (List.mem_singleton_self _) h
  i _ := rfl
  pc _ := rfl
  stackEntry _ _ := rfl
  sp _ := rfl
  pixels _ _ _ := rfl
  dt _ := rfl
  st _ := rfl
  key _ _ := rfl
  kw _ := rfl
  kwReg _ := rfl
  draw _ := rfl
  sndEnd _ := rfl
  rnd _ := ⟨rfl, rfl⟩

theorem perform_load_of_gt {image : List Byte} (s : State) (h : 3584 < image.length) :
    perform (.load image) s = (.error (.outOfRange .load image.length), s) := by
  simp [perform, loadImage, Config.maxImage, h, raise, settle]

theorem perform_load_of_le {image : List Byte} (s : State) (h : image.length ≤ 3584) :
    perform (.load image) s = (.ok, s.setMem (s.mem.writeBlock 0x200 image)) := by
  rw [perform, loadImage_eq_next.2 ⟨h, rfl⟩]
  rfl

end Sys2Proof.Machine

namespace Sys2Proof.Claims

open Machine

/-- Settles O46: an accepted image is one block written at PROG_BASE. -/
theorem loadPlacesTheImage : Obligations.LoadPlacesTheImage := by
  unfold Obligations.LoadPlacesTheImage
  exact fun image s => ⟨perform_load_of_gt s, fun h => ⟨_, perform_load_of_le s h,
    fun _ hk => Memory.read_writeBlock_of_lt hk,
    fun _ ha => Memory.read_writeBlock_of_outside ha,
    s.setMem_unchangedBut _⟩⟩

end Sys2Proof.Claims
end

section
/-! SUPPORT. The decoder run on the words the encoder builds (30_encoding.md R64, R65). -/

namespace Sys2Proof

/-- A SYS word other than the two of rows 2 and 3 stays a SYS word (30_encoding.md R65). -/
theorem decodeFamily0_wordNNN {nnn : Imm12} (h : (Instr.sys nnn).wellFormed = true) :
    decodeFamily0 (wordNNN 0x0 nnn) = .sys nnn := by
  obtain ⟨hcls, hret⟩ : nnn ≠ 0x0E0#12 ∧ nnn ≠ 0x0EE#12 := by simpa [Instr.wellFormed] using h
  obtain ⟨-, hnnn⟩ := fields_wordNNN (f := 0x0) (by decide) nnn
  have ne_cls : wordNNN 0x0 nnn ≠ 0x00E0#16 := fun e => hcls (by rw [← hnnn, e]; rfl)
  have ne_ret : wordNNN 0x0 nnn ≠ 0x00EE#16 := fun e => hret (by rw [← hnnn, e]; rfl)
  simp [decodeFamily0, ne_cls, ne_ret, hnnn]

/-- The family nibble selects the branch, the low nibble or byte the row in it, and the fields come back. -/
theorem decodeWord_encode {i : Instr} (h : i.wellFormed = true) : decodeWord (encode i) = .ok i := by
  cases i with
  | cls | ret => rfl
  | sys nnn => simp [decodeWord, encode, fields_wordNNN, decodeFamily0_wordNNN h]
  | jp nnn | call nnn | ldI nnn | jpV0 nnn => simp [decodeWord, encode, fields_wordNNN]
  | seByte x kk | sneByte x kk | ldByte x kk | addByte x kk | rnd x kk =>
    simp [decodeWord, encode, fields_wordXKK]
  | seReg x y | sneReg x y | drw x y n => simp [decodeWord, encode, fields_wordXYN]
  | ldReg x y | orReg x y | andReg x y | xorReg x y | addReg x y | subReg x y | shr x y | subn x y
  | shl x y => simp [decodeWord, decodeFamily8, encode, fields_wordXYN]
  | skp x | sknp x => simp [decodeWord, decodeFamilyE, encode, fields_wordXKK]
  | ldVxDt x | ldVxK x | ldDtVx x | ldStVx x | addI x | ldF x | ldB x | storeRegs x | loadRegs x =>
    simp [decodeWord, decodeFamilyF, encode, fields_wordXKK]

theorem decodeWord_of_encode_eq {i : Instr} {op : Word} (hi : encode i = op) (h : i.wellFormed = true) :
    decodeWord op = .ok i :=
  hi ▸ decodeWord_encode h

end Sys2Proof

namespace Sys2Proof.Claims

/-- Settles O3: the decoder run on the word of each constructor. -/
theorem decodeOfEncodeIsTheInstruction : Obligations.DecodeOfEncodeIsTheInstruction := by
  unfold Obligations.DecodeOfEncodeIsTheInstruction
  exact fun _ => decodeWord_encode

end Sys2Proof.Claims
end

section
/-! SUPPORT. The patterns of 30_encoding.md R65 as numbers, by format (R62). -/

namespace Sys2Proof

variable {i : Instr}

/-- Format NNN. -/
theorem decodeWord_numberNNN (f : Nat) (nnn : Imm12) (hi : encode i = wordNNN f nnn)
    (hwf : i.wellFormed = true) : decodeWord (.ofNat 16 (f * 0x1000 + nnn.toNat)) = .ok i :=
  decodeWord_of_encode_eq hi hwf

/-- Format XKK. -/
theorem decodeWord_numberXKK (f : Nat) (x : Reg) (kk : Byte) (hi : encode i = wordXKK f x kk)
    (hwf : i.wellFormed = true) :
    decodeWord (.ofNat 16 (f * 0x1000 + (x.val * 0x100 + kk.toNat))) = .ok i := by
  rw [← Nat.add_assoc]
  exact decodeWord_of_encode_eq hi hwf

/-- Format X, whose low byte `kk` is the row's own. -/
theorem decodeWord_numberX (f : Nat) (kk : Byte) (x : Reg) (hi : encode i = wordXKK f x kk)
    (hwf : i.wellFormed = true) :
    decodeWord (.ofNat 16 (f * 0x1000 + kk.toNat + x.val * 0x100)) = .ok i := by
  rw [Nat.add_right_comm]
  exact decodeWord_of_encode_eq hi hwf

/-- Format XY, whose low nibble `n` is the row's own. -/
theorem decodeWord_numberXY (f : Nat) (n : Nibble) (x y : Reg) (hi : encode i = wordXYN f x y n)
    (hwf : i.wellFormed = true) :
    decodeWord (.ofNat 16 (f * 0x1000 + n.toNat + (x.val * 0x100 + y.val * 0x10))) = .ok i := by
  rw [Nat.add_right_comm, ← Nat.add_assoc]
  exact decodeWord_of_encode_eq hi hwf

/-- Format XYN. -/
theorem decodeWord_numberXYN (f : Nat) (x y : Reg) (n : Nibble) (hi : encode i = wordXYN f x y n)
    (hwf : i.wellFormed = true) :
    decodeWord (.ofNat 16 (f * 0x1000 + (x.val * 0x100 + y.val * 0x10) + n.toNat)) = .ok i := by
  rw [← Nat.add_assoc]
  exact decodeWord_of_encode_eq hi hwf

theorem wellFormed_sys_iff {nnn : Imm12} :
    (Instr.sys nnn).wellFormed = true ↔ nnn.toNat ≠ 0x0E0 ∧ nnn.toNat ≠ 0x0EE := by
  simp [Instr.wellFormed, BitVec.toNat_eq]

end Sys2Proof

namespace Sys2Proof.Claims

/-- Settles O1: the number of each row is the word of its instruction, in the order of R65. -/
theorem opcodePatternsDecodeToTheirRows : Obligations.OpcodePatternsDecodeToTheirRows := by
  unfold Obligations.OpcodePatternsDecodeToTheirRows
  intro x y n kk nnn
  refine ⟨fun hcls hret => ?_, rfl, rfl, decodeWord_numberNNN 0x1 nnn rfl rfl,
    decodeWord_numberNNN 0x2 nnn rfl rfl, decodeWord_numberXKK 0x3 x kk rfl rfl,
    decodeWord_numberXKK 0x4 x kk rfl rfl, decodeWord_numberXY 0x5 0x0 x y rfl rfl,
    decodeWord_numberXKK 0x6 x kk rfl rfl, decodeWord_numberXKK 0x7 x kk rfl rfl,
    decodeWord_numberXY 0x8 0x0 x y rfl rfl, decodeWord_numberXY 0x8 0x1 x y rfl rfl,
    decodeWord_numberXY 0x8 0x2 x y rfl rfl, decodeWord_numberXY 0x8 0x3 x y rfl rfl,
    decodeWord_numberXY 0x8 0x4 x y rfl rfl, decodeWord_numberXY 0x8 0x5 x y rfl rfl,
    decodeWord_numberXY 0x8 0x6 x y rfl rfl, decodeWord_numberXY 0x8 0x7 x y rfl rfl,
    decodeWord_numberXY 0x8 0xE x y rfl rfl, decodeWord_numberXY 0x9 0x0 x y rfl rfl,
    decodeWord_numberNNN 0xA nnn rfl rfl, decodeWord_numberNNN 0xB nnn rfl rfl,
    decodeWord_numberXKK 0xC x kk rfl rfl, decodeWord_numberXYN 0xD x y n rfl rfl,
    decodeWord_numberX 0xE 0x9E x rfl rfl, decodeWord_numberX 0xE 0xA1 x rfl rfl,
    decodeWord_numberX 0xF 0x07 x rfl rfl, decodeWord_numberX 0xF 0x0A x rfl rfl,
    decodeWord_numberX 0xF 0x15 x rfl rfl, decodeWord_numberX 0xF 0x18 x rfl rfl,
    decodeWord_numberX 0xF 0x1E x rfl rfl, decodeWord_numberX 0xF 0x29 x rfl rfl,
    decodeWord_numberX 0xF 0x33 x rfl rfl, decodeWord_numberX 0xF 0x55 x rfl rfl,
    decodeWord_numberX 0xF 0x65 x rfl rfl⟩
  have h := decodeWord_numberNNN 0x0 nnn rfl (wellFormed_sys_iff.2 ⟨hcls, hret⟩)
  simpa using h

end Sys2Proof.Claims
end

section
/-! SUPPORT. Words of the test vectors (95_test_vectors.md section 2). -/

namespace Sys2Proof.Claims

/-- Settles O6: the decoder evaluated on each of the 24 words. -/
theorem vectorWordsDecode : Obligations.VectorWordsDecode := by
  unfold Obligations.VectorWordsDecode
  decide

end Sys2Proof.Claims
end

section
/-! SUPPORT. A word put together again from its fields (30_encoding.md R61), and the encoder run on what the
decoder answers. -/

namespace Sys2Proof

variable {op : Word} {f : Nat}

/-! ### Words from their fields -/

theorem toNat_of_fieldF (hf : f < 16) (hF : fieldF op = .ofNat 4 f) : op.toNat / 0x1000 = f := by
  rw [← toNat_fieldF, hF, BitVec.toNat_ofNat]
  omega

theorem wordNNN_of_fields (hf : f < 16) (hF : fieldF op = .ofNat 4 f) :
    wordNNN f (fieldNNN op) = op := by
  have := toNat_of_fieldF hf hF
  apply BitVec.eq_of_toNat_eq
  rw [toNat_wordNNN hf, toNat_fieldNNN]
  omega

theorem wordXKK_of_fields {kk : Byte} (hf : f < 16) (hF : fieldF op = .ofNat 4 f)
    (hKK : fieldKK op = kk) : wordXKK f (fieldX op) kk = op := by
  have := toNat_of_fieldF hf hF
  apply BitVec.eq_of_toNat_eq
  rw [toNat_wordXKK hf, val_fieldX, ← hKK, toNat_fieldKK]
  omega

theorem wordXYN_of_fields {n : Nibble} (hf : f < 16) (hF : fieldF op = .ofNat 4 f)
    (hN : fieldN op = n) : wordXYN f (fieldX op) (fieldY op) n = op := by
  have := toNat_of_fieldF hf hF
  apply BitVec.eq_of_toNat_eq
  rw [toNat_wordXYN hf, val_fieldX, val_fieldY, ← hN, toNat_fieldN]
  omega

/-! ### The decoder's answers, branch by branch -/

/-- An answer of the decoder that is the error, or a well-formed instruction whose word is `op`. -/
def Faithful (op : Word) (r : Except Reject Instr) : Prop :=
  ∀ i, r = .ok i → encode i = op ∧ i.wellFormed = true

theorem Faithful.ok {i : Instr} (hi : encode i = op) (hwf : i.wellFormed = true) :
    Faithful op (.ok i) := by
  rintro _ ⟨⟩
  exact ⟨hi, hwf⟩

theorem Faithful.error {r : Reject} : Faithful op (.error r) := nofun

theorem Faithful.ite {c : Prop} [Decidable c] {q r : Except Reject Instr} (hq : c → Faithful op q)
    (hr : ¬ c → Faithful op r) : Faithful op (if c then q else r) := by
  split
  · exact hq ‹_›
  · exact hr ‹_›

theorem decodeFamily0_faithful (hF : fieldF op = 0x0#4) : Faithful op (.ok (decodeFamily0 op)) := by
  unfold decodeFamily0
  split
  · next hcls => exact .ok hcls.symm rfl
  · next hcls =>
    split
    · next hret => exact .ok hret.symm rfl
    · next hret =>
      have hop : wordNNN 0x0 (fieldNNN op) = op := wordNNN_of_fields (by decide) hF
      have ne_cls : fieldNNN op ≠ 0x0E0#12 := fun h => hcls (by rw [← hop, h]; rfl)
      have ne_ret : fieldNNN op ≠ 0x0EE#12 := fun h => hret (by rw [← hop, h]; rfl)
      exact .ok hop (by simp [Instr.wellFormed, ne_cls, ne_ret])

theorem decodeFamily8_faithful (hF : fieldF op = 0x8#4) : Faithful op (decodeFamily8 op) := by
  unfold decodeFamily8
  iterate 9 refine .ite (fun hN => .ok (wordXYN_of_fields (by decide) hF hN) rfl) fun _ => ?_
  exact .error

theorem decodeFamilyE_faithful (hF : fieldF op = 0xE#4) : Faithful op (decodeFamilyE op) := by
  unfold decodeFamilyE
  iterate 2 refine .ite (fun hKK => .ok (wordXKK_of_fields (by decide) hF hKK) rfl) fun _ => ?_
  exact .error

theorem decodeFamilyF_faithful (hF : fieldF op = 0xF#4) : Faithful op (decodeFamilyF op) := by
  unfold decodeFamilyF
  iterate 9 refine .ite (fun hKK => .ok (wordXKK_of_fields (by decide) hF hKK) rfl) fun _ => ?_
  exact .error

theorem Faithful.nnn {i : Instr} (hf : f < 16) (hi : encode i = wordNNN f (fieldNNN op))
    (hwf : i.wellFormed = true) (hF : fieldF op = .ofNat 4 f) : Faithful op (.ok i) :=
  .ok (hi.trans (wordNNN_of_fields hf hF)) hwf

theorem Faithful.xkk {i : Instr} (hf : f < 16) (hi : encode i = wordXKK f (fieldX op) (fieldKK op))
    (hwf : i.wellFormed = true) (hF : fieldF op = .ofNat 4 f) : Faithful op (.ok i) :=
  .ok (hi.trans (wordXKK_of_fields hf hF rfl)) hwf

/-- The families with one row whose low nibble is fixed (5XY0, 9XY0). -/
theorem Faithful.xy0 {i : Instr} (hf : f < 16) (hi : encode i = wordXYN f (fieldX op) (fieldY op) 0x0#4)
    (hwf : i.wellFormed = true) (hF : fieldF op = .ofNat 4 f) :
    Faithful op (if fieldN op = 0x0#4 then .ok i else .error (.noSuchInstruction op)) :=
  .ite (fun hN => .ok (hi.trans (wordXYN_of_fields hf hF hN)) hwf) fun _ => .error

/-- The last family is what is left of the sixteen values of the top nibble. -/
theorem decodeWord_faithful (op : Word) : Faithful op (decodeWord op) := by
  unfold decodeWord
  refine .ite decodeFamily0_faithful fun _ => ?_
  refine .ite (.nnn (by decide) rfl rfl) fun _ => ?_
  refine .ite (.nnn (by decide) rfl rfl) fun _ => ?_
  refine .ite (.xkk (by decide) rfl rfl) fun _ => ?_
  refine .ite (.xkk (by decide) rfl rfl) fun _ => ?_
  refine .ite (.xy0 (by decide) rfl rfl) fun _ => ?_
  refine .ite (.xkk (by decide) rfl rfl) fun _ => ?_
  refine .ite (.xkk (by decide) rfl rfl) fun _ => ?_
  refine .ite decodeFamily8_faithful fun _ => ?_
  refine .ite (.xy0 (by decide) rfl rfl) fun _ => ?_
  refine .ite (.nnn (by decide) rfl rfl) fun _ => ?_
  refine .ite (.nnn (by decide) rfl rfl) fun _ => ?_
  refine .ite (.xkk (by decide) rfl rfl) fun _ => ?_
  refine .ite (fun hF => .ok (wordXYN_of_fields (by decide) hF rfl) rfl) fun _ => ?_
  refine .ite decodeFamilyE_faithful fun _ => ?_
  exact decodeFamilyF_faithful (by bv_omega)

end Sys2Proof

namespace Sys2Proof.Claims

/-- Settles O4: each branch of the decoder answers the instruction its fields are encoded from. -/
theorem encodeOfDecodeIsTheWord : Obligations.EncodeOfDecodeIsTheWord := by
  unfold Obligations.EncodeOfDecodeIsTheWord
  exact decodeWord_faithful

end Sys2Proof.Claims
end

section
/-! SUPPORT. The columns mask and match of 30_encoding.md R65 as conditions on a word's fields, and the row of
the instruction a word decodes to. -/

namespace Sys2Proof

variable {a b op w : Word}

/-! ### The fields of a number and of a masked word -/

@[simp] theorem fieldF_ofNat (n : Nat) : fieldF (.ofNat 16 n) = .ofNat 4 (n / 0x1000) := by
  apply BitVec.eq_of_toNat_eq
  rw [toNat_fieldF, BitVec.toNat_ofNat, BitVec.toNat_ofNat]
  omega

@[simp] theorem val_fieldX_ofNat (n : Nat) : (fieldX (.ofNat 16 n)).val = n / 0x100 % 16 := by
  rw [val_fieldX, BitVec.toNat_ofNat]
  omega

@[simp] theorem val_fieldY_ofNat (n : Nat) : (fieldY (.ofNat 16 n)).val = n / 0x10 % 16 := by
  rw [val_fieldY, BitVec.toNat_ofNat]
  omega

@[simp] theorem fieldN_ofNat (n : Nat) : fieldN (.ofNat 16 n) = .ofNat 4 n := by
  apply BitVec.eq_of_toNat_eq
  rw [toNat_fieldN, BitVec.toNat_ofNat, BitVec.toNat_ofNat]
  omega

@[simp] theorem fieldKK_ofNat (n : Nat) : fieldKK (.ofNat 16 n) = .ofNat 8 n := by
  apply BitVec.eq_of_toNat_eq
  rw [toNat_fieldKK, BitVec.toNat_ofNat, BitVec.toNat_ofNat]
  omega

@[simp] theorem fieldNNN_ofNat (n : Nat) : fieldNNN (.ofNat 16 n) = .ofNat 12 n := by
  apply BitVec.eq_of_toNat_eq
  rw [toNat_fieldNNN, BitVec.toNat_ofNat, BitVec.toNat_ofNat]
  omega

@[simp] theorem fieldF_and : fieldF (a &&& b) = fieldF a &&& fieldF b := BitVec.extractLsb'_and ..

@[simp] theorem val_fieldX_and : (fieldX (a &&& b)).val = (fieldX a).val &&& (fieldX b).val :=
  (congrArg BitVec.toNat BitVec.extractLsb'_and).trans (BitVec.toNat_and ..)

@[simp] theorem val_fieldY_and : (fieldY (a &&& b)).val = (fieldY a).val &&& (fieldY b).val :=
  (congrArg BitVec.toNat BitVec.extractLsb'_and).trans (BitVec.toNat_and ..)

@[simp] theorem fieldN_and : fieldN (a &&& b) = fieldN a &&& fieldN b := BitVec.extractLsb'_and ..

@[simp] theorem fieldKK_and : fieldKK (a &&& b) = fieldKK a &&& fieldKK b := BitVec.extractLsb'_and ..

@[simp] theorem fieldNNN_and : fieldNNN (a &&& b) = fieldNNN a &&& fieldNNN b := BitVec.extractLsb'_and ..

/-- A mask nibble of ones keeps the nibble. -/
@[simp] theorem nibble_and_ones (n : Nibble) : n &&& 0xF#4 = n := BitVec.and_allOnes

@[simp] theorem byte_and_ones (b : Byte) : b &&& 0xFF#8 = b := BitVec.and_allOnes

/-! ### Words with the same fields -/

theorem word_ext_NNN (hF : fieldF a = fieldF b) (hNNN : fieldNNN a = fieldNNN b) : a = b := by
  have hF := congrArg BitVec.toNat hF
  have hNNN := congrArg BitVec.toNat hNNN
  simp only [toNat_fieldF, toNat_fieldNNN] at hF hNNN
  bv_omega

theorem word_ext_XKK (hF : fieldF a = fieldF b) (hX : (fieldX a).val = (fieldX b).val)
    (hKK : fieldKK a = fieldKK b) : a = b := by
  have hF := congrArg BitVec.toNat hF
  have hKK := congrArg BitVec.toNat hKK
  simp only [toNat_fieldF, val_fieldX, toNat_fieldKK] at hF hX hKK
  bv_omega

theorem word_ext_XYN (hF : fieldF a = fieldF b) (hX : (fieldX a).val = (fieldX b).val)
    (hY : (fieldY a).val = (fieldY b).val) (hN : fieldN a = fieldN b) : a = b := by
  have hF := congrArg BitVec.toNat hF
  have hN := congrArg BitVec.toNat hN
  simp only [toNat_fieldF, val_fieldX, val_fieldY, toNat_fieldN] at hF hX hY hN
  bv_omega

/-! ### The three masks of formats with fields -/

theorem and_F000_eq_iff : op &&& 0xF000#16 = w ↔ fieldF op = fieldF w ∧ fieldNNN w = 0#12 := by
  refine ⟨?_, fun ⟨hF, hNNN⟩ => word_ext_NNN ?_ ?_⟩
  · rintro rfl
    simp
  · simp [hF]
  · simp [hNNN]

theorem and_F0FF_eq_iff :
    op &&& 0xF0FF#16 = w ↔ fieldF op = fieldF w ∧ (fieldX w).val = 0 ∧ fieldKK op = fieldKK w := by
  refine ⟨?_, fun ⟨hF, hX, hKK⟩ => word_ext_XKK ?_ ?_ ?_⟩
  · rintro rfl
    simp
  · simp [hF]
  · simp [hX]
  · simp [hKK]

theorem and_F00F_eq_iff :
    op &&& 0xF00F#16 = w ↔
      fieldF op = fieldF w ∧ (fieldX w).val = 0 ∧ (fieldY w).val = 0 ∧ fieldN op = fieldN w := by
  refine ⟨?_, fun ⟨hF, hX, hY, hN⟩ => word_ext_XYN ?_ ?_ ?_ ?_⟩
  · rintro rfl
    simp
  · simp [hF]
  · simp [hX]
  · simp [hY]
  · simp [hN]

end Sys2Proof

namespace Sys2Proof.Claims

/-! ### The rows of R65 -/

/-- The word of an instruction is in its row. -/
theorem encode_and_rowMask (i : Instr) : encode i &&& rowMask i = rowMatch i := by
  cases i with
  | cls | ret => rfl
  | sys nnn | jp nnn | call nnn | ldI nnn | jpV0 nnn =>
    simp [encode, rowMask, rowMatch, and_F000_eq_iff, fields_wordNNN]
  | seByte x kk | sneByte x kk | ldByte x kk | addByte x kk | rnd x kk =>
    simp [encode, rowMask, rowMatch, and_F000_eq_iff, fields_wordXKK]
  | drw x y n => simp [encode, rowMask, rowMatch, and_F000_eq_iff, fields_wordXYN]
  | seReg x y | ldReg x y | orReg x y | andReg x y | xorReg x y | addReg x y | subReg x y | shr x y
  | subn x y | shl x y | sneReg x y =>
    simp [encode, rowMask, rowMatch, and_F00F_eq_iff, fields_wordXYN]
  | skp x | sknp x | ldVxDt x | ldVxK x | ldDtVx x | ldStVx x | addI x | ldF x | ldB x | storeRegs x
  | loadRegs x =>
    simp [encode, rowMask, rowMatch, and_F0FF_eq_iff, fields_wordXKK]

/-- The instruction of a row with the operands a word's fields hold (30_encoding.md R61, R65). -/
def withFields (op : Word) : Instr → Instr
  | .sys _ => .sys (fieldNNN op)
  | .cls => .cls
  | .ret => .ret
  | .jp _ => .jp (fieldNNN op)
  | .call _ => .call (fieldNNN op)
  | .seByte _ _ => .seByte (fieldX op) (fieldKK op)
  | .sneByte _ _ => .sneByte (fieldX op) (fieldKK op)
  | .seReg _ _ => .seReg (fieldX op) (fieldY op)
  | .ldByte _ _ => .ldByte (fieldX op) (fieldKK op)
  | .addByte _ _ => .addByte (fieldX op) (fieldKK op)
  | .ldReg _ _ => .ldReg (fieldX op) (fieldY op)
  | .orReg _ _ => .orReg (fieldX op) (fieldY op)
  | .andReg _ _ => .andReg (fieldX op) (fieldY op)
  | .xorReg _ _ => .xorReg (fieldX op) (fieldY op)
  | .addReg _ _ => .addReg (fieldX op) (fieldY op)
  | .subReg _ _ => .subReg (fieldX op) (fieldY op)
  | .shr _ _ => .shr (fieldX op) (fieldY op)
  | .subn _ _ => .subn (fieldX op) (fieldY op)
  | .shl _ _ => .shl (fieldX op) (fieldY op)
  | .sneReg _ _ => .sneReg (fieldX op) (fieldY op)
  | .ldI _ => .ldI (fieldNNN op)
  | .jpV0 _ => .jpV0 (fieldNNN op)
  | .rnd _ _ => .rnd (fieldX op) (fieldKK op)
  | .drw _ _ _ => .drw (fieldX op) (fieldY op) (fieldN op)
  | .skp _ => .skp (fieldX op)
  | .sknp _ => .sknp (fieldX op)
  | .ldVxDt _ => .ldVxDt (fieldX op)
  | .ldVxK _ => .ldVxK (fieldX op)
  | .ldDtVx _ => .ldDtVx (fieldX op)
  | .ldStVx _ => .ldStVx (fieldX op)
  | .addI _ => .addI (fieldX op)
  | .ldF _ => .ldF (fieldX op)
  | .ldB _ => .ldB (fieldX op)
  | .storeRegs _ => .storeRegs (fieldX op)
  | .loadRegs _ => .loadRegs (fieldX op)

theorem rowMask_withFields (op : Word) (row : Instr) : rowMask (withFields op row) = rowMask row := by
  cases row <;> rfl

theorem rowMatch_withFields (op : Word) (row : Instr) : rowMatch (withFields op row) = rowMatch row := by
  cases row <;> rfl

/-- The mask of a row keeps the fields its branch of the decoder tests; row 1 leaves the words of rows 2
and 3 to them. -/
theorem decodeWord_of_row {op : Word} {row : Instr} (h : op &&& rowMask row = rowMatch row)
    (hsys : rowMatch row = 0x0000 → op ≠ 0x00E0#16 ∧ op ≠ 0x00EE#16) :
    decodeWord op = .ok (withFields op row) := by
  cases row with
  | cls | ret =>
    obtain rfl := (BitVec.and_allOnes (x := op)).symm.trans h
    rfl
  | sys nnn =>
    obtain ⟨hF, -⟩ := and_F000_eq_iff.1 h
    obtain ⟨hcls, hret⟩ := hsys rfl
    simp [decodeWord, decodeFamily0, withFields, hF, rowMatch, hcls, hret]
  | jp nnn | call nnn | ldI nnn | jpV0 nnn | seByte x kk | sneByte x kk | ldByte x kk | addByte x kk
  | rnd x kk | drw x y n =>
    obtain ⟨hF, -⟩ := and_F000_eq_iff.1 h
    simp [decodeWord, withFields, hF, rowMatch]
  | seReg x y | sneReg x y =>
    obtain ⟨hF, -, -, hN⟩ := and_F00F_eq_iff.1 h
    simp [decodeWord, withFields, hF, hN, rowMatch]
  | ldReg x y | orReg x y | andReg x y | xorReg x y | addReg x y | subReg x y | shr x y | subn x y
  | shl x y =>
    obtain ⟨hF, -, -, hN⟩ := and_F00F_eq_iff.1 h
    simp [decodeWord, decodeFamily8, withFields, hF, hN, rowMatch]
  | skp x | sknp x =>
    obtain ⟨hF, -, hKK⟩ := and_F0FF_eq_iff.1 h
    simp [decodeWord, decodeFamilyE, withFields, hF, hKK, rowMatch]
  | ldVxDt x | ldVxK x | ldDtVx x | ldStVx x | addI x | ldF x | ldB x | storeRegs x | loadRegs x =>
    obtain ⟨hF, -, hKK⟩ := and_F0FF_eq_iff.1 h
    simp [decodeWord, decodeFamilyF, withFields, hF, hKK, rowMatch]

/-- A word that decodes is in the row of the instruction it decodes to. -/
theorem and_rowMask_of_decodeWord {op : Word} {i : Instr} (h : decodeWord op = .ok i) :
    op &&& rowMask i = rowMatch i := by
  obtain ⟨rfl, -⟩ := decodeWord_faithful op i h
  exact encode_and_rowMask i

theorem rowMatch_eq_zero {i : Instr} (h : rowMatch i = 0x0000) : ∃ nnn, i = .sys nnn := by
  cases i with
  | sys nnn => exact ⟨nnn, rfl⟩
  | _ => exact absurd h (by simp [rowMatch])

/-- Settles O2: a word is in the row of the instruction it decodes to, and each row's branch of the decoder
tests the fields the row's mask keeps. -/
theorem decoderAgreesWithMaskAndMatch : Obligations.DecoderAgreesWithMaskAndMatch := by
  unfold Obligations.DecoderAgreesWithMaskAndMatch
  intro op row
  constructor
  · rintro ⟨i, hi, hmask, hmatch⟩
    refine ⟨hmask ▸ hmatch ▸ and_rowMask_of_decodeWord hi, fun hzero => ?_⟩
    obtain ⟨nnn, rfl⟩ := rowMatch_eq_zero (hmatch.trans hzero)
    constructor
    · rintro rfl
      cases hi
    · rintro rfl
      cases hi
  · rintro ⟨h, hsys⟩
    exact ⟨_, decodeWord_of_row h hsys, rowMask_withFields op row, rowMatch_withFields op row⟩

end Sys2Proof.Claims
end

section
/-! SUPPORT. The step of a fetched word, by what the decoder answers for it (40_step_and_dispatch.md R80,
R83), and the errors it raises (30_encoding.md R68). -/

namespace Sys2Proof.Machine

variable {s : State} {op : Word}

theorem State.blocked_of_fetches (h : Claims.Fetches s op) : s.blocked = false := h.1

theorem State.fetch_of_fetches (h : Claims.Fetches s op) : s.fetch = .ok op := by
  obtain ⟨-, hpc, hop⟩ := h
  exact State.fetch_eq_ok.2 ⟨hpc, hop⟩

theorem step_of_decodeWord_error {e : Reject} (h : Claims.Fetches s op) (he : decodeWord op = .error e) :
    step s = .fault (.decodeError op) := by
  simp [step, State.blocked_of_fetches h, State.fetchDecode, State.fetch_of_fetches h, he, raise]

theorem step_of_decodeWord_ok {i : Instr} (h : Claims.Fetches s op) (hi : decodeWord op = .ok i) :
    step s = finishStep (exec i s.clearDraw) := by
  simp [step, State.blocked_of_fetches h, State.fetchDecode, State.fetch_of_fetches h, hi]

/-- SYS raises DecodeError of the word it was decoded from (41_control_flow.md R100). -/
theorem step_of_decodeWord_sys {nnn : Imm12} (h : Claims.Fetches s op)
    (hi : decodeWord op = .ok (.sys nnn)) : step s = .fault (.decodeError op) := by
  obtain ⟨hop, -⟩ := decodeWord_faithful op _ hi
  rw [step_of_decodeWord_ok h hi, ← hop]
  rfl

/-- The bytes on the `rnd` input are not fetched. -/
theorem fetches_setRndInputs (l : List Byte) (h : Claims.Fetches s op) :
    Claims.Fetches (s.setRndInputs l) op := h

theorem performStep_of_fault {r : Byte} {f : Fault} (hblocked : s.blocked = false)
    (h : step (s.setRndInputs [r]) = .fault f) : performStep r s = (.error f, s) := by
  simp [performStep, hblocked, h]

/-- Of the rows only row 1, SYS, can still take such a word. -/
theorem step_of_unmatched (h : Claims.Fetches s op)
    (hrows : ∀ row : Instr, Claims.rowMatch row ≠ 0x0000 →
      op &&& Claims.rowMask row ≠ Claims.rowMatch row) :
    step s = .fault (.decodeError op) := by
  cases hd : decodeWord op with
  | error e => exact step_of_decodeWord_error h hd
  | ok i =>
    have hzero : Claims.rowMatch i = 0x0000 := by
      by_contra hne
      exact hrows i hne (Claims.and_rowMask_of_decodeWord hd)
    obtain ⟨nnn, rfl⟩ := Claims.rowMatch_eq_zero hzero
    exact step_of_decodeWord_sys h hd

end Sys2Proof.Machine

namespace Sys2Proof.Claims

open Machine

/-- Settles O5: the decoder rejects the word, or it is a SYS word and its meaning raises the error. -/
theorem unmatchedWordsRaiseDecodeError : Obligations.UnmatchedWordsRaiseDecodeError := by
  unfold Obligations.UnmatchedWordsRaiseDecodeError
  intro op s r h hrows
  have hstep := step_of_unmatched (fetches_setRndInputs [r] h) hrows
  exact ⟨step_of_unmatched h hrows, performStep_of_fault (State.blocked_of_fetches h) hstep⟩

end Sys2Proof.Claims
end

section
/-! SUPPORT. A step phase by phase (40_step_and_dispatch.md R80): blocked, the fetch and its range check
(R82), the decoded instruction (R83). -/

namespace Sys2Proof.Machine

variable {s : State}

theorem step_of_kw (hk : s.kw = true) : step s = .next s := by
  simp [step, State.blocked, hk]

theorem State.fetch_of_gt (hpc : 0xFFE < s.pc.toNat) :
    s.fetch = .error (.outOfRange .fetch s.pc.toNat) := by
  simp [State.fetch, hpc]

theorem step_of_pc_gt (hk : s.kw = false) (hpc : 0xFFE < s.pc.toNat) :
    step s = .fault (.outOfRange .fetch s.pc.toNat) := by
  simp [step, State.blocked, hk, State.fetchDecode, State.fetch_of_gt hpc, raise]

end Sys2Proof.Machine

namespace Sys2Proof.Claims

open Machine

/-- Settles O7: phase by phase, the last two by how `exec` ends. -/
theorem stepRunsTheDecodedInstruction : Obligations.StepRunsTheDecodedInstruction := by
  unfold Obligations.StepRunsTheDecodedInstruction
  intro s
  refine ⟨step_of_kw, step_of_pc_gt, fun op hf => ⟨fun e => step_of_decodeWord_error hf, fun i hi => ?_⟩⟩
  rw [step_of_decodeWord_ok hf hi]
  exact ⟨fun f hexec => finishStep_eq_fault.2 hexec, fun u hexec => finishStep_eq_next.2 ⟨u, hexec, rfl⟩⟩

/-- Settles O10: the word is put together from the two bytes, the one at the lower address on top. -/
theorem fetchIsBigEndianAndRangeChecked : Obligations.FetchIsBigEndianAndRangeChecked := by
  unfold Obligations.FetchIsBigEndianAndRangeChecked
  exact fun s => ⟨State.fetch_of_gt, step_of_pc_gt, fun hpc => ⟨_, State.fetch_eq_ok.2 ⟨hpc, rfl⟩,
    BitVec.extractLsb'_append_eq_left, BitVec.extractLsb'_append_eq_right⟩⟩

end Sys2Proof.Claims
end

section
/-! SUPPORT. The timer phase as arithmetic and as a frame (40_step_and_dispatch.md R90). -/

namespace Sys2Proof.Machine

variable {s t : State}

/-- A timer counts down to 0 and stays there. -/
theorem toNat_countDown (b : Byte) : (if b ≠ 0 then b - 1 else b).toNat = b.toNat - 1 := by
  split <;> bv_omega

theorem State.timerPhase_sndEnd_iff (s : State) : s.timerPhase.sndEnd = true ↔ s.st.toNat = 1 := by
  rw [State.timerPhase_sndEnd, beq_iff_eq, BitVec.toNat_eq]
  rfl

theorem State.timerPhase_unchangedBut (s : State) :
    UnchangedBut [.dt, .st, .sndEnd] s s.timerPhase where
  v _ _ := rfl
  mem _ _ := rfl
  i _ := rfl
  pc _ := rfl
  stackEntry _ _ := rfl
  sp _ := rfl
  pixels _ _ _ := rfl
  dt h := absurd (by decide) h
  st h := absurd (by decide) h
  key _ _ := rfl
  kw _ := rfl
  kwReg _ := rfl
  draw _ := rfl
  sndEnd h := absurd (by decide) h
  rnd _ := ⟨rfl, rfl⟩

/-- A step that is blocked or ends in an error leaves the state (R81, 60_exceptions.md R196). -/
theorem eq_of_performStep_ne_ok {r : Byte} {q : Result} (h : performStep r s = (q, t)) (hq : q ≠ .ok) :
    t = s := by
  obtain hs | ⟨u, -, -, hu⟩ := performStep_cases (s := s) r
  · rwa [h] at hs
  · rw [h] at hu
    exact absurd (congrArg Prod.fst hu) hq

end Sys2Proof.Machine

namespace Sys2Proof.Claims

open Machine

/-- Settles O8: the step ends in the timer phase of what the instruction left; the other steps leave the
whole state. -/
theorem timerPhaseCountsDown : Obligations.TimerPhaseCountsDown := by
  unfold Obligations.TimerPhaseCountsDown
  refine fun s => ⟨fun u op i hf hi hexec => ⟨u.timerPhase, ?_, toNat_countDown u.dt, toNat_countDown u.st,
    u.timerPhase_sndEnd_iff, u.timerPhase_unchangedBut⟩, fun r q t h hq => ?_⟩
  · rw [step_of_decodeWord_ok hf hi, hexec]
    rfl
  · obtain rfl := eq_of_performStep_ne_ok h hq
    exact ⟨rfl, rfl, rfl⟩

end Sys2Proof.Claims
end

section
/-! SUPPORT. The key-wait: a blocked step, any number of them, and what ends the wait
(40_step_and_dispatch.md R81). -/

namespace Sys2Proof.Machine

variable {s : State}

theorem perform_step_of_kw (hk : s.kw = true) (r : Byte) : perform (.step r) s = (.blocked, s) := by
  simp [perform, performStep, State.blocked, hk]

theorem runScript_steps_of_kw (hk : s.kw = true) (rs : List Byte) : runScript (rs.map .step) s = s := by
  induction rs with
  | nil => rfl
  | cons r rs ih => rwa [List.map_cons, runScript, perform_step_of_kw hk r]

theorem perform_load_kw (image : List Byte) (s : State) : (perform (.load image) s).2.kw = s.kw := by
  by_cases h : 3584 < image.length
  · rw [perform_load_of_gt s h]
  · rw [perform_load_of_le s (Nat.le_of_not_gt h), State.setMem_kw]

theorem perform_kw_of_stepOrLoad {o : Operation} (ho : Claims.StepOrLoad o) (hk : s.kw = true) :
    (perform o s).2.kw = true := by
  cases o with
  | step r => rwa [perform_step_of_kw hk r]
  | load image => rwa [perform_load_kw]
  | reset | deliverKey key => exact ho.elim

end Sys2Proof.Machine

namespace Sys2Proof.Claims

open Machine

/-- Settles O9: every blocked step answers the state it was given, and of the operations that are left a
load keeps KW. -/
theorem blockedStepsChangeNothing : Obligations.BlockedStepsChangeNothing := by
  unfold Obligations.BlockedStepsChangeNothing
  refine fun s hk => ⟨step_of_kw hk, perform_step_of_kw hk, runScript_steps_of_kw hk, fun o hend => ?_⟩
  cases o with
  | reset => exact .inl rfl
  | deliverKey key => exact .inr ⟨key, rfl⟩
  | step r => simp [perform_kw_of_stepOrLoad (o := .step r) trivial hk] at hend
  | load image => simp [perform_kw_of_stepOrLoad (o := .load image) trivial hk] at hend

end Sys2Proof.Claims
end

section
/-! SUPPORT. The model's own placing of a word (log 4), and the fetch of it (40_step_and_dispatch.md R82). -/

namespace Sys2Proof.Machine

theorem State.placeWord_kw (s : State) (op : Word) : (s.placeWord op).kw = false := rfl

/-- The word is written at the PC the placing leaves. -/
theorem State.placeWord_mem (s : State) (op : Word) :
    (s.placeWord op).mem = s.mem.writeBlock (s.placeWord op).pc.toNat (wordBytes op) := rfl

theorem State.placeWord_pc (s : State) (op : Word) :
    (s.placeWord op).pc = if 0xFFE < s.pc.toNat then 0x200 else s.pc := rfl

theorem State.placeWord_pc_le (s : State) (op : Word) : (s.placeWord op).pc.toNat ≤ 0xFFE := by
  rw [State.placeWord_pc]
  split
  · decide
  · omega

theorem State.placeWord_fetches (s : State) (op : Word) : Claims.Fetches (s.placeWord op) op := by
  refine ⟨s.placeWord_kw op, s.placeWord_pc_le op, ?_⟩
  have hi : (s.placeWord op).mem.read (s.placeWord op).pc.toNat = op.extractLsb' 8 8 := by
    rw [State.placeWord_mem]
    exact Memory.read_writeBlock_of_lt (k := 0) (by simp)
  have lo : (s.placeWord op).mem.read ((s.placeWord op).pc.toNat + 1) = op.extractLsb' 0 8 := by
    rw [State.placeWord_mem]
    exact Memory.read_writeBlock_of_lt (by simp)
  rw [hi, lo]
  exact (wordOfBytes_wordBytes op).symm

/-- Where the next step would fetch at PC anyway, only memory is written. -/
theorem State.placeWord_of_fetchable {s : State} (op : Word) (hk : s.kw = false) (hpc : s.pc.toNat ≤ 0xFFE) :
    s.placeWord op = s.setMem (s.mem.writeBlock s.pc.toNat (wordBytes op)) := by
  have hnot : ¬ 0xFFE < s.pc.toNat := by omega
  simp [State.placeWord, hnot, State.setKw, State.setPc, ← hk]

theorem State.withFetchWord_sixteen (s : State) {w : Nat} (hw : w < 65536) :
    s.withFetchWord 16 w = s.placeWord (.ofNat 16 w) := by
  rw [State.withFetchWord, Nat.mod_eq_of_lt (show w < 2 ^ 16 from hw)]

end Sys2Proof.Machine

namespace Sys2Proof.Claims

open Machine

/-- Settles O55: placing a word of 16 bits is a block write of its two bytes at PC. -/
theorem placedWordIsTheNextFetched : Obligations.PlacedWordIsTheNextFetched := by
  unfold Obligations.PlacedWordIsTheNextFetched
  intro s w hw
  rw [State.withFetchWord_sixteen s hw]
  refine ⟨s.placeWord_fetches _, fun hk hpc => ?_⟩
  rw [State.placeWord_of_fetchable _ hk hpc]
  refine ⟨s.setMem_unchangedBut _, fun a ha => Memory.read_writeBlock_of_outside ?_⟩
  rw [length_wordBytes]
  omega

end Sys2Proof.Claims
end

section
/-! SUPPORT. How an instruction ends, said once for each shared check: with exactly the errors its rule
lists, or else completed (40_step_and_dispatch.md R84, R86; 60_exceptions.md R192, R193). -/

namespace Sys2Proof.Machine

variable {P : Fault → Prop} {o : Host.Outcome State Fault Refusal} {s t : State}

/-- The outcome is the fault of the one error that meets `P`, or a next state where none does. -/
inductive EndsBy (P : Fault → Prop) : Host.Outcome State Fault Refusal → Prop where
  /-- No error meets `P`. -/
  | completes (t : State) (noError : ∀ f, ¬ P f) : EndsBy P (.next t)
  /-- `g` meets `P`, and no other error does. -/
  | stops (g : Fault) (only : ∀ f, P f ↔ f = g) : EndsBy P (.fault g)

theorem EndsBy.eq_fault_iff (h : EndsBy P o) (f : Fault) : o = .fault f ↔ P f := by
  cases h with
  | completes t noError => simp [noError f]
  | stops g only => simp [only f, eq_comm]

theorem EndsBy.exists_next (h : EndsBy P o) (noError : ∀ f, ¬ P f) : ∃ t, o = .next t := by
  cases h with
  | completes t => exact ⟨t, rfl⟩
  | stops g only => exact absurd ((only g).2 rfl) (noError g)

theorem EndsBy.ne_refused (h : EndsBy P o) (q : Refusal) : o ≠ .refused q := by
  cases h with
  | completes | stops => exact nofun

/-- An instruction whose rule lists no error. -/
theorem endsBy_next : EndsBy (fun _ => False) (.next t) := .completes t fun _ => id

theorem endsBy_requireInRange {kind : RangeKind} {last : Nat} :
    EndsBy (fun f => 0xFFF < last ∧ f = .outOfRange kind last) (requireInRange kind last (.next t)) := by
  by_cases h : 0xFFF < last
  · rw [requireInRange_eq_fault.2 (.inl ⟨h, rfl⟩)]
    exact .stops _ fun f => by simp [h]
  · rw [requireInRange_eq_next.2 ⟨by omega, rfl⟩]
    exact .completes t fun f => by simp [h]

/-- A store of at most 0xE00 bytes cannot end above memory and start below 0x200, so its two conditions
exclude each other (60_exceptions.md R195). -/
theorem endsBy_requireStorable {base last : Nat} (hlast : last < base + 0xE00) :
    EndsBy (fun f => (0xFFF < last ∧ f = .outOfRange .memWrite last) ∨
        (base < 0x200 ∧ f = .outOfRange .memProtect base))
      (requireStorable false base last (.next t)) := by
  by_cases h : 0xFFF < last
  · have hbase : ¬ base < 0x200 := by omega
    rw [requireStorable_eq_fault.2 (.inl ⟨h, rfl⟩)]
    exact .stops _ fun f => by simp [h, hbase]
  · by_cases hbase : base < 0x200
    · rw [requireStorable_eq_fault.2 (.inr ⟨by omega, .inl ⟨rfl, hbase, rfl⟩⟩)]
      exact .stops _ fun f => by simp [h, hbase]
    · rw [requireStorable_eq_next.2 ⟨by omega, .inr (by omega), rfl⟩]
      exact .completes t fun f => by simp [h, hbase]

theorem endsBy_requireIndex {kind : RangeKind} {b : Byte} {c : Fin 16 → State} :
    EndsBy (fun f => 15 < b.toNat ∧ f = .outOfRange kind b.toNat)
      (requireIndex kind b fun n => .next (c n)) := by
  by_cases h : 15 < b.toNat
  · rw [requireIndex_of_gt h]
    exact .stops _ fun f => by simp [h]
  · rw [requireIndex_of_le ⟨b.toNat, by omega⟩ rfl]
    exact .completes _ fun f => by simp [h]

theorem endsBy_push {ret : Word} {g : Fault} {c : State → State} :
    EndsBy (fun f => s.sp.val = 16 ∧ f = g) (s.push ret g fun t => .next (c t)) := by
  by_cases h : s.sp.val = 16
  · rw [State.push_of_full h]
    exact .stops _ fun f => by simp [h]
  · rw [State.push_of_lt (by omega)]
    exact .completes _ fun f => by simp [h]

theorem endsBy_pop {c : Word → State → State} :
    EndsBy (fun f => s.sp.val = 0 ∧ f = .outOfRange .stack 0) (s.pop fun ret t => .next (c ret t)) := by
  by_cases h : s.sp.val = 0
  · rw [State.pop_of_empty h]
    exact .stops _ fun f => by simp [h]
  · rw [State.pop_of_pos (by omega)]
    exact .completes _ fun f => by simp [h]

/-- Only the sprite's last byte is checked, and none where the sprite has no row (43_draw.md R141). -/
theorem execDrw_endsBy (x y : Reg) (n : Nibble) (s : State) :
    EndsBy (Raises (.drw x y n) s) (execDrw x y n s) := by
  unfold execDrw
  split
  next h => exact .completes _ fun f => by simp [Raises, h]
  next h =>
    have hlast : s.addr (n.toNat - 1) = s.i.toNat + n.toNat - 1 := by
      simp only [State.addr]
      omega
    have hraises : Raises (.drw x y n) s = fun f => 0xFFF < s.addr (n.toNat - 1) ∧
        f = .outOfRange .memRead (s.addr (n.toNat - 1)) := by
      funext f
      simp [Raises, hlast, Nat.one_le_iff_ne_zero.2 h]
    rw [hraises]
    exact endsBy_requireInRange

/-- Every instruction ends by the errors its rule lists. -/
theorem exec_endsBy (i : Instr) (s : State) : EndsBy (Raises i s) (exec i s) := by
  cases i with
  | sys nnn => exact .stops _ fun f => by simp [Raises, encode, wordNNN]
  | ret => exact (endsBy_pop : EndsBy _ (execRet s))
  | call nnn => exact (endsBy_push : EndsBy _ (execCall nnn s))
  | drw x y n => exact execDrw_endsBy x y n s
  | skp x => exact (endsBy_requireIndex : EndsBy _ (execSkp x s))
  | sknp x => exact (endsBy_requireIndex : EndsBy _ (execSknp x s))
  | ldF x => exact (endsBy_requireIndex : EndsBy _ (execLdF x s))
  | ldB x => exact endsBy_requireStorable (by simp)
  | storeRegs x => exact endsBy_requireStorable (by omega)
  | loadRegs x => exact endsBy_requireInRange
  | cls | jp nnn | jpV0 nnn | seByte x kk | sneByte x kk | seReg x y | sneReg x y | ldByte x kk
  | addByte x kk | ldReg x y | orReg x y | andReg x y | xorReg x y | addReg x y | subReg x y
  | shr x y | subn x y | shl x y | ldI nnn | rnd x kk | ldVxDt x | ldVxK x | ldDtVx x | ldStVx x
  | addI x => exact endsBy_next

end Sys2Proof.Machine

namespace Sys2Proof.Claims

open Machine

/-- Settles O11: an instruction built over the shared checks ends as they do. -/
theorem instructionsFaultExactlyWhereTheirRuleSays :
    Obligations.InstructionsFaultExactlyWhereTheirRuleSays := by
  unfold Obligations.InstructionsFaultExactlyWhereTheirRuleSays
  intro i s
  have h := exec_endsBy i s
  exact ⟨h.eq_fault_iff, h.exists_next, h.ne_refused⟩

end Sys2Proof.Claims
end

section
/-! SUPPORT. PC after an instruction of the sequential and of the skip class (40_step_and_dispatch.md R87). -/

namespace Sys2Proof.Claims

open Machine

theorem exec_pc_of_advancesByTwo {i : Instr} {s t : State} (hi : AdvancesByTwo i) (h : exec i s = .next t) :
    t.pc = s.pc + 2 := by
  cases i with
  | drw x y n =>
    obtain ⟨-, rfl⟩ := execDrw_eq_next.1 h
    rfl
  | ldF x =>
    obtain ⟨d, -, rfl⟩ := execLdF_eq_next.1 h
    rfl
  | ldB x =>
    obtain ⟨-, -, rfl⟩ := execLdB_eq_next.1 h
    rfl
  | storeRegs x =>
    obtain ⟨-, -, rfl⟩ := execStoreRegs_eq_next.1 h
    rfl
  | loadRegs x =>
    obtain ⟨-, rfl⟩ := execLoadRegs_eq_next.1 h
    rfl
  | rnd x kk =>
    cases h
    exact congrArg (· + 2) s.rndDrawn_pc
  | cls | ldByte x kk | addByte x kk | ldReg x y | orReg x y | andReg x y | xorReg x y | addReg x y
  | subReg x y | shr x y | subn x y | shl x y | ldI nnn | ldVxDt x | ldVxK x | ldDtVx x | ldStVx x
  | addI x =>
    cases h
    rfl
  | sys nnn | ret | jp nnn | call nnn | seByte x kk | sneByte x kk | seReg x y | sneReg x y | jpV0 nnn
  | skp x | sknp x => exact hi.elim

/-- The key that the register of SKP or SKNP names is one key. -/
theorem exists_key_iff {s : State} {k : Key} {n : Nat} {b : Bool} (hk : k.val = n) :
    (∃ q : Key, q.val = n ∧ s.key q = b) ↔ s.key k = b := by
  constructor
  · rintro ⟨q, hq, hb⟩
    obtain rfl : q = k := Fin.ext (hq.trans hk.symm)
    exact hb
  · exact fun hb => ⟨k, hk, hb⟩

/-- A skip goes by the truth of its condition. -/
theorem exec_pc_of_skipCondition {i : Instr} {s t : State} {c : Prop} (hc : skipCondition s i = some c)
    (h : exec i s = .next t) : ∃ b : Bool, (b = true ↔ c) ∧ t.pc = s.pc + if b then 4 else 2 := by
  cases i with
  | seByte x kk | seReg x y =>
    cases hc
    cases h
    exact ⟨_, beq_iff_eq, rfl⟩
  | sneByte x kk | sneReg x y =>
    cases hc
    cases h
    exact ⟨_, bne_iff_ne, rfl⟩
  | skp x =>
    cases hc
    obtain ⟨k, hk, rfl⟩ := execSkp_eq_next.1 h
    exact ⟨_, (exists_key_iff hk).symm, rfl⟩
  | sknp x =>
    cases hc
    obtain ⟨k, hk, rfl⟩ := execSknp_eq_next.1 h
    exact ⟨!s.key k, by rw [exists_key_iff hk, Bool.not_eq_true'], rfl⟩
  | _ => cases hc

/-- Settles O13: PC + 2 or PC + 4 as words, read as numbers. -/
theorem programCounterClasses : Obligations.ProgramCounterClasses := by
  unfold Obligations.ProgramCounterClasses
  intro i s t h
  refine ⟨fun hi => ?_, fun c hc => ?_⟩
  · rw [exec_pc_of_advancesByTwo hi h]
    exact BitVec.toNat_add s.pc 2
  · obtain ⟨b, hb, hpc⟩ := exec_pc_of_skipCondition hc h
    rw [hpc, ← hb]
    cases b with
    | true => exact ⟨fun _ => BitVec.toNat_add s.pc 4, fun hnot => absurd rfl hnot⟩
    | false => exact ⟨nofun, fun _ => BitVec.toNat_add s.pc 2⟩

end Sys2Proof.Claims
end

section
/-! SUPPORT. Frames of the three updates the control transfers are made of, and their composition
(10_state.md section 1; 41_control_flow.md). -/

namespace Sys2Proof.Machine

variable {l l' : List Part} {s t u : State}

/-- A piece that neither of two changes touches is as it was before both. -/
theorem UnchangedBut.trans (h : UnchangedBut l s t) (h' : UnchangedBut l' t u) :
    UnchangedBut (l ++ l') s u := by
  have untouched {p : Part} (hp : p ∉ l ++ l') : p ∉ l ∧ p ∉ l' := by simpa using hp
  exact {
    v r hp := (h'.v r (untouched hp).2).trans (h.v r (untouched hp).1)
    mem hp a := (h'.mem (untouched hp).2 a).trans (h.mem (untouched hp).1 a)
    i hp := (h'.i (untouched hp).2).trans (h.i (untouched hp).1)
    pc hp := (h'.pc (untouched hp).2).trans (h.pc (untouched hp).1)
    stackEntry n hp := (h'.stackEntry n (untouched hp).2).trans (h.stackEntry n (untouched hp).1)
    sp hp := (h'.sp (untouched hp).2).trans (h.sp (untouched hp).1)
    pixels hp x y := (h'.pixels (untouched hp).2 x y).trans (h.pixels (untouched hp).1 x y)
    dt hp := (h'.dt (untouched hp).2).trans (h.dt (untouched hp).1)
    st hp := (h'.st (untouched hp).2).trans (h.st (untouched hp).1)
    key k hp := (h'.key k (untouched hp).2).trans (h.key k (untouched hp).1)
    kw hp := (h'.kw (untouched hp).2).trans (h.kw (untouched hp).1)
    kwReg hp := (h'.kwReg (untouched hp).2).trans (h.kwReg (untouched hp).1)
    draw hp := (h'.draw (untouched hp).2).trans (h.draw (untouched hp).1)
    sndEnd hp := (h'.sndEnd (untouched hp).2).trans (h.sndEnd (untouched hp).1)
    rnd hp :=
      have ⟨inputs, count⟩ := h.rnd (untouched hp).1
      have ⟨inputs', count'⟩ := h'.rnd (untouched hp).2
      ⟨inputs'.trans inputs, count'.trans count⟩ }

theorem State.setPc_unchangedBut (s : State) (w : Word) : UnchangedBut [.pc] s (s.setPc w) := by
  constructor <;> simp

theorem State.setSp_unchangedBut (s : State) (d : Fin 17) : UnchangedBut [.sp] s (s.setSp d) := by
  constructor <;> simp

theorem State.setStack_set_unchangedBut (s : State) (n : Fin 16) (w : Word) :
    UnchangedBut [.stackEntry n] s (s.setStack (s.stack.set n.val w)) := by
  constructor
  case stackEntry =>
    intro m hm
    have hne : n.val ≠ m.val := fun h => hm (by simp [Fin.ext h])
    exact Vector.getElem_set_ne n.isLt m.isLt hne
  all_goals simp

end Sys2Proof.Machine
end

section
/-! SUPPORT. Jumps, calls, returns and SYS, one instruction at a time (41_control_flow.md R100 to R104). -/

namespace Sys2Proof.Machine

theorem toNat_zextNNN (nnn : Imm12) : (zextNNN nnn).toNat = nnn.toNat := by
  simp only [zextNNN, BitVec.toNat_setWidth]
  omega

/-- The sum of JP V0 stays below 0x10FF, so it never wraps (41_control_flow.md R104). -/
theorem toNat_zextNNN_add_zextByte (nnn : Imm12) (b : Byte) :
    (zextNNN nnn + zextByte b).toNat = nnn.toNat + b.toNat := by
  simp only [zextNNN, zextByte, BitVec.toNat_add, BitVec.toNat_setWidth]
  omega

end Sys2Proof.Machine

namespace Sys2Proof.Claims

open Machine

/-- Settles O19: both jumps set PC and nothing else. -/
theorem jumpsSetTheProgramCounter : Obligations.JumpsSetTheProgramCounter := by
  unfold Obligations.JumpsSetTheProgramCounter
  exact fun nnn s => ⟨⟨_, rfl, toNat_zextNNN nnn, s.setPc_unchangedBut _⟩,
    ⟨_, rfl, toNat_zextNNN_add_zextByte nnn _, s.setPc_unchangedBut _⟩⟩

/-- Settles O20: a full stack raises the error of R103; else one entry, SP and PC are set in turn. -/
theorem callPushesTheReturnAddress : Obligations.CallPushesTheReturnAddress := by
  unfold Obligations.CallPushesTheReturnAddress
  intro nnn s
  constructor
  · exact fun full => ((exec_endsBy (.call nnn) s).eq_fault_iff _).2 ⟨full, rfl⟩
  · intro room
    refine ⟨_, execCall_eq_next.2 ⟨room, rfl⟩, ?_, rfl, toNat_zextNNN nnn,
      ((s.setStack_set_unchangedBut ⟨_, room⟩ _).trans (State.setSp_unchangedBut _ _)).trans
        (State.setPc_unchangedBut _ _)⟩
    have pushed : (s.stack.set s.sp.val (s.pc + 2))[s.sp.val] = s.pc + 2 := Vector.getElem_set_self _
    exact (congrArg BitVec.toNat pushed).trans (BitVec.toNat_add s.pc 2)

/-- Settles O21: an empty stack raises the error of R101; else SP and PC are set in turn, PC to the entry
below SP. -/
theorem returnPopsTheReturnAddress : Obligations.ReturnPopsTheReturnAddress := by
  unfold Obligations.ReturnPopsTheReturnAddress
  intro s
  constructor
  · exact fun empty => ((exec_endsBy .ret s).eq_fault_iff _).2 ⟨empty, rfl⟩
  · intro n hn
    have below : s.sp.val - 1 = n.val := by omega
    refine ⟨_, execRet_eq_next.2 ⟨by omega, rfl⟩, below, ?_,
      (s.setSp_unchangedBut _).trans (State.setPc_unchangedBut _ _)⟩
    simp [below]

/-- Settles O22: SYS lists its error without a condition, and the words of family 0 but those of CLS and RET
decode to it. -/
theorem sysAlwaysRaisesDecodeError : Obligations.SysAlwaysRaisesDecodeError := by
  unfold Obligations.SysAlwaysRaisesDecodeError
  constructor
  · intro nnn s
    rw [BitVec.ofNat_toNat]
    exact ((exec_endsBy (.sys nnn) s).eq_fault_iff _).2 rfl
  · intro op s r hf hfamily ne_cls ne_ret
    have hsys : decodeWord op = .ok (.sys (fieldNNN op)) :=
      decodeWord_of_row (row := .sys 0) hfamily fun _ => ⟨ne_cls, ne_ret⟩
    exact performStep_of_fault (State.blocked_of_fetches hf)
      (step_of_decodeWord_sys (fetches_setRndInputs [r] hf) hsys)

end Sys2Proof.Claims
end

section
/-! SUPPORT. A stack entry from the CALL that pushes it to the RET that pops it, over whatever the host does
between (41_control_flow.md R105). -/

namespace Sys2Proof.Machine

variable {s t : State} {op : Word} {i : Instr} {r : Byte}

/-- The instruction of a host's step that ended OK, between DRAW <- 0 and the timer phase
(40_step_and_dispatch.md R80). -/
theorem exec_of_performStep_ok (hf : Claims.Fetches s op) (hd : decodeWord op = .ok i)
    (h : performStep r s = (.ok, t)) :
    ∃ u, exec i (s.setRndInputs [r]).clearDraw = .next u ∧
      t = u.timerPhase.setRndInputs s.rndInputs := by
  rw [performStep, State.blocked_of_fetches hf,
    step_of_decodeWord_ok (fetches_setRndInputs [r] hf) hd] at h
  cases hexec : exec i (s.setRndInputs [r]).clearDraw with
  | next u =>
    rw [hexec] at h
    exact ⟨u, rfl, (congrArg Prod.snd h).symm⟩
  | fault f | refused q =>
    rw [hexec] at h
    cases h

theorem performStep_call_pushes {nnn : Imm12} (hf : Claims.Fetches s op)
    (hd : decodeWord op = .ok (.call nnn)) (h : performStep r s = (.ok, t)) (room : s.sp.val < 16) :
    (t.stack[s.sp.val]).toNat = (s.pc.toNat + 2) % 65536 := by
  obtain ⟨u, hu, rfl⟩ := exec_of_performStep_ok hf hd h
  obtain ⟨-, pushes⟩ := Claims.callPushesTheReturnAddress nnn (s.setRndInputs [r]).clearDraw
  obtain ⟨u', hu', entry, -⟩ := pushes room
  obtain rfl : u = u' := by simpa [hu] using hu'
  exact entry

theorem performStep_ret_pops (hf : Claims.Fetches s op) (hd : decodeWord op = .ok .ret)
    (h : performStep r s = (.ok, t)) {n : Fin 16} (depth : s.sp.val = n.val + 1) :
    t.sp.val = n.val ∧ t.pc = s.stack[n.val] := by
  obtain ⟨u, hu, rfl⟩ := exec_of_performStep_ok hf hd h
  obtain ⟨-, pops⟩ := Claims.returnPopsTheReturnAddress (s.setRndInputs [r]).clearDraw
  obtain ⟨u', hu', sp, pc, -⟩ := pops n depth
  obtain rfl : u = u' := by simpa [hu] using hu'
  exact ⟨sp, pc⟩

/-- An entry that is live all along a script without `reset` is the same entry at its end
(10_state.md R16). -/
theorem runScript_stackEntry {os : List Operation} {n : Fin 16} (hos : ∀ o ∈ os, o ≠ .reset)
    (live : ∀ k ≤ os.length, n.val < (runScript (os.take k) s).sp.val) :
    (runScript os s).stack[n.val] = s.stack[n.val] := by
  induction os generalizing s with
  | nil => rfl
  | cons o os ih =>
    obtain ⟨ho, hos⟩ := List.forall_mem_cons.1 hos
    have liveRest : ∀ k ≤ os.length, n.val < (runScript (os.take k) (perform o s).2).sp.val :=
      fun k hk => live (k + 1) (Nat.succ_le_succ hk)
    have kept := perform_liveKept s ho n (live 0 (Nat.zero_le _)) (liveRest 0 (Nat.zero_le _))
    exact (ih hos liveRest).trans kept

end Sys2Proof.Machine

namespace Sys2Proof.Claims

open Machine

/-- Settles O23: the entry the CALL pushed is live until the RET, so it is kept, and the RET finds it on
top. -/
theorem matchingReturnResumesAfterTheCall : Obligations.MatchingReturnResumesAfterTheCall := by
  unfold Obligations.MatchingReturnResumesAfterTheCall
  intro s s1 t nnn r r' os op op' hcall hcallOp hstep hos live depth hret hretOp hstep'
  have room : s.sp.val < 16 :=
    Nat.lt_of_lt_of_le (live 0 (Nat.zero_le _)) (Nat.le_of_lt_succ (Fin.isLt _))
  have pushed := performStep_call_pushes hcall hcallOp hstep room
  have kept := runScript_stackEntry (n := ⟨s.sp.val, room⟩) hos live
  obtain ⟨hsp, hpc⟩ := performStep_ret_pops (n := ⟨s.sp.val, room⟩) hret hretOp hstep' depth
  refine ⟨?_, Fin.ext hsp⟩
  rw [hpc, kept]
  exact pushed

end Sys2Proof.Claims
end

section
/-! SUPPORT. What the register-writing instructions and the skips leave: the registers and PC as numbers, and
the frame (42_alu_and_skip.md). -/

namespace Sys2Proof.Machine

variable {l l' : List Part} {s t : State}

/-! ### Frames -/

/-- A frame that names more pieces says less. -/
theorem UnchangedBut.mono (h : UnchangedBut l s t) (sub : l ⊆ l') : UnchangedBut l' s t where
  v r hp := h.v r (mt (sub ·) hp)
  mem hp := h.mem (mt (sub ·) hp)
  i hp := h.i (mt (sub ·) hp)
  pc hp := h.pc (mt (sub ·) hp)
  stackEntry n hp := h.stackEntry n (mt (sub ·) hp)
  sp hp := h.sp (mt (sub ·) hp)
  pixels hp := h.pixels (mt (sub ·) hp)
  dt hp := h.dt (mt (sub ·) hp)
  st hp := h.st (mt (sub ·) hp)
  key k hp := h.key k (mt (sub ·) hp)
  kw hp := h.kw (mt (sub ·) hp)
  kwReg hp := h.kwReg (mt (sub ·) hp)
  draw hp := h.draw (mt (sub ·) hp)
  sndEnd hp := h.sndEnd (mt (sub ·) hp)
  rnd hp := h.rnd (mt (sub ·) hp)

theorem State.setV_unchangedBut (s : State) (x : Reg) (b : Byte) : UnchangedBut [.v x] s (s.setV x b) := by
  constructor
  case v => exact fun r hr => s.v_setV_of_ne b fun h => hr (by simp [h])
  all_goals simp

theorem State.writeFlagged_unchangedBut (s : State) (x : Reg) (b : Byte) (c : Bool) :
    UnchangedBut [.v x, .v 15] s (s.writeFlagged x b c) :=
  (s.setV_unchangedBut x b).trans (State.setV_unchangedBut _ vf (flagByte c))

theorem State.clearDraw_unchangedBut (s : State) : UnchangedBut [.draw] s s.clearDraw := by
  constructor <;> simp

theorem State.rndDrawn_unchangedBut (s : State) : UnchangedBut [.rnd] s s.rndDrawn := by
  constructor <;> simp

/-! ### PC as a number -/

theorem State.toNat_advance_pc (s : State) : s.advance.pc.toNat = (s.pc.toNat + 2) % 65536 :=
  BitVec.toNat_add s.pc 2

theorem State.toNat_skipIf_pc (s : State) {c : Bool} {p : Prop} [Decidable p] (h : c = true ↔ p) :
    (s.skipIf c).pc.toNat = (s.pc.toNat + if p then 4 else 2) % 65536 := by
  rw [State.skipIf_pc, BitVec.toNat_add]
  by_cases hp : p
  · simp [hp, h.2 hp]
  · simp [hp, mt h.1 hp]

/-! ### The two shapes of a register write -/

/-- Everything an unflagged instruction does. -/
theorem writeUnflagged_spec (x : Reg) (b : Byte) (s : State) :
    ∃ t, writeUnflagged x b s = .next t ∧ t.v x = b ∧ t.pc.toNat = (s.pc.toNat + 2) % 65536 ∧
      UnchangedBut [.v x, .pc] s t :=
  ⟨_, rfl, s.v_setV_self x b, State.toNat_advance_pc _,
    (s.setV_unchangedBut x b).trans (State.setPc_unchangedBut _ _)⟩

theorem toNat_flagByte (c : Bool) : (flagByte c).toNat = if c then 1 else 0 := by
  cases c <;> rfl

/-- Everything a flagged instruction does; the flag is written last (10_state.md R12). -/
theorem writeFlaggedResult_spec (x : Reg) (b : Byte) (c : Bool) (s : State) :
    ∃ t, writeFlaggedResult x b c s = .next t ∧ (x ≠ 15 → t.v x = b) ∧
      (t.v 15).toNat = (if c then 1 else 0) ∧ t.pc.toNat = (s.pc.toNat + 2) % 65536 ∧
      UnchangedBut [.v x, .v 15, .pc] s t := by
  refine ⟨_, rfl, fun hx => ?_, ?_, State.toNat_advance_pc _,
    (s.writeFlagged_unchangedBut x b c).trans (State.setPc_unchangedBut _ _)⟩
  · have hvf : x ≠ vf := hx
    simp [State.v_writeFlagged, hvf]
  · exact (congrArg BitVec.toNat (State.v_setV_self _ vf _)).trans (toNat_flagByte c)

end Sys2Proof.Machine
end

section
/-! SUPPORT. The flagged operations as arithmetic on bytes (42_alu_and_skip.md R120 to R124). -/

namespace Sys2Proof.Machine

/-- The difference modulo 256 as an integer, whether or not it borrows. -/
theorem toNat_sub_eq_emod (a b : Byte) : ((a - b).toNat : Int) = ((a.toNat : Int) - b.toNat) % 256 := by
  rw [BitVec.toNat_sub]
  omega

/-- SUB and SUBN are one subtraction with the operands exchanged. -/
theorem writeFlaggedResult_sub_spec (x : Reg) (a b : Byte) (s : State) :
    ∃ t, writeFlaggedResult x (a - b) (notBorrow a b) s = .next t ∧
      (x ≠ 15 → ((t.v x).toNat : Int) = ((a.toNat : Int) - b.toNat) % 256) ∧
      (t.v 15).toNat = (if a.toNat ≥ b.toNat then 1 else 0) ∧
      t.pc.toNat = (s.pc.toNat + 2) % 65536 ∧ UnchangedBut [.v x, .v 15, .pc] s t := by
  obtain ⟨t, ht, result, flag, pc, frame⟩ := writeFlaggedResult_spec x (a - b) (notBorrow a b) s
  refine ⟨t, ht, fun hx => ?_, ?_, pc, frame⟩
  · rw [result hx, toNat_sub_eq_emod]
  · simpa [notBorrow] using flag

theorem ite_lowBit_eq_mod (a : Byte) : (if lowBit a then 1 else 0) = a.toNat % 2 := by
  simp only [lowBit, BitVec.getLsbD, Nat.testBit_zero, decide_eq_true_eq]
  split <;> omega

theorem ite_highBit_eq_div (a : Byte) : (if highBit a then 1 else 0) = a.toNat / 128 := by
  simp only [highBit, BitVec.getLsbD, Nat.testBit_eq_decide_div_mod_eq, decide_eq_true_eq]
  split <;> omega

theorem shiftRight_spec (src : Config.ShiftSource) (x y : Reg) (s : State) :
    ∃ t, shiftRight src x y s = .next t ∧ (x ≠ 15 → (t.v x).toNat = (s.shiftOperand src x y).toNat / 2) ∧
      (t.v 15).toNat = (s.shiftOperand src x y).toNat % 2 ∧ t.pc.toNat = (s.pc.toNat + 2) % 65536 ∧
      UnchangedBut [.v x, .v 15, .pc] s t := by
  obtain ⟨t, ht, result, flag, pc, frame⟩ := writeFlaggedResult_spec x
    (s.shiftOperand src x y >>> 1) (lowBit (s.shiftOperand src x y)) s
  refine ⟨t, ht, fun hx => ?_, flag.trans (ite_lowBit_eq_mod _), pc, frame⟩
  rw [result hx, BitVec.toNat_ushiftRight, Nat.shiftRight_one]

theorem shiftLeft_spec (src : Config.ShiftSource) (x y : Reg) (s : State) :
    ∃ t, shiftLeft src x y s = .next t ∧
      (x ≠ 15 → (t.v x).toNat = (s.shiftOperand src x y).toNat * 2 % 256) ∧
      (t.v 15).toNat = (s.shiftOperand src x y).toNat / 128 ∧ t.pc.toNat = (s.pc.toNat + 2) % 65536 ∧
      UnchangedBut [.v x, .v 15, .pc] s t := by
  obtain ⟨t, ht, result, flag, pc, frame⟩ := writeFlaggedResult_spec x
    (s.shiftOperand src x y <<< 1) (highBit (s.shiftOperand src x y)) s
  refine ⟨t, ht, fun hx => ?_, flag.trans (ite_highBit_eq_div _), pc, frame⟩
  rw [result hx, BitVec.toNat_shiftLeft, Nat.shiftLeft_eq]

end Sys2Proof.Machine

namespace Sys2Proof.Claims

open Machine

/-- Settles O27: the sum as a word and the carry as a comparison, read as numbers. -/
theorem addSetsSumAndCarry : Obligations.AddSetsSumAndCarry := by
  unfold Obligations.AddSetsSumAndCarry
  intro x y s
  obtain ⟨t, ht, result, flag, pc, frame⟩ := writeFlaggedResult_spec x
    (s.v x + s.v y) (carryOut (s.v x) (s.v y)) s
  refine ⟨t, ht, fun hx => ?_, ?_, pc, frame⟩
  · rw [result hx, BitVec.toNat_add]
  · simpa [carryOut] using flag

/-- Settles O28: one subtraction, with the operands in either order. -/
theorem subtractionsSetDifferenceAndNotBorrow : Obligations.SubtractionsSetDifferenceAndNotBorrow := by
  unfold Obligations.SubtractionsSetDifferenceAndNotBorrow
  exact fun x y s => ⟨writeFlaggedResult_sub_spec x (s.v x) (s.v y) s,
    writeFlaggedResult_sub_spec x (s.v y) (s.v x) s⟩

/-- Settles O29: each shift at both values of SHIFT_SRC; the instructions are the shifts at the default. -/
theorem shiftsMoveOneBitOut : Obligations.ShiftsMoveOneBitOut := by
  unfold Obligations.ShiftsMoveOneBitOut
  exact fun x y s => ⟨shiftRight_spec Config.shiftSrc x y s, shiftLeft_spec Config.shiftSrc x y s,
    shiftRight_spec .vy x y s, shiftLeft_spec .vy x y s⟩

end Sys2Proof.Claims
end

section
/-! SUPPORT. The unflagged register writes and the skips, one instruction at a time
(42_alu_and_skip.md R110 to R119). -/

namespace Sys2Proof

variable {op : Word}

/-- The two families with one row whose low nibble is 0. -/
theorem decodeWord_of_fieldN_ne_zero (hF : fieldF op = 0x5#4 ∨ fieldF op = 0x9#4) (hN : fieldN op ≠ 0x0#4) :
    decodeWord op = .error (.noSuchInstruction op) := by
  obtain hF | hF := hF <;> simp [decodeWord, hF, hN]

end Sys2Proof

namespace Sys2Proof.Claims

open Machine

/-- Settles O24: each skip by its comparison; in families 5 and 9 the decoder takes low nibble 0 only. -/
theorem skipsCompareAndSkip : Obligations.SkipsCompareAndSkip := by
  unfold Obligations.SkipsCompareAndSkip
  refine ⟨fun x y kk s => ⟨?_, ?_, ?_, ?_⟩, fun op hF hN => ?_⟩
  · exact ⟨_, rfl, s.toNat_skipIf_pc beq_iff_eq, s.setPc_unchangedBut _⟩
  · exact ⟨_, rfl, s.toNat_skipIf_pc bne_iff_ne, s.setPc_unchangedBut _⟩
  · exact ⟨_, rfl, s.toNat_skipIf_pc beq_iff_eq, s.setPc_unchangedBut _⟩
  · exact ⟨_, rfl, s.toNat_skipIf_pc bne_iff_ne, s.setPc_unchangedBut _⟩
  · rw [← toNat_fieldF] at hF
    rw [← toNat_fieldN] at hN
    exact decodeWord_of_fieldN_ne_zero (hF.imp BitVec.eq_of_toNat_eq BitVec.eq_of_toNat_eq)
      fun h => hN (congrArg BitVec.toNat h)

/-- Settles O25: an unflagged write of the immediate, and of the sum read as a number. -/
theorem immediateLoadAndAdd : Obligations.ImmediateLoadAndAdd := by
  unfold Obligations.ImmediateLoadAndAdd
  intro x kk s
  obtain ⟨t, ht, result, pc, frame⟩ := writeUnflagged_spec x (s.v x + kk) s
  exact ⟨writeUnflagged_spec x kk s, t, ht, by rw [result, BitVec.toNat_add], pc, frame⟩

/-- Settles O26: unflagged writes of Vy and of the three operations, read bit by bit. -/
theorem assignAndBitwiseOperations : Obligations.AssignAndBitwiseOperations := by
  unfold Obligations.AssignAndBitwiseOperations
  intro x y s
  refine ⟨writeUnflagged_spec x (s.v y) s, ?_, ?_, ?_⟩
  · obtain ⟨t, ht, result, pc, frame⟩ := writeUnflagged_spec x (s.v x ||| s.v y) s
    exact ⟨t, ht, fun b _ => by rw [result, BitVec.getLsbD_or], pc, frame⟩
  · obtain ⟨t, ht, result, pc, frame⟩ := writeUnflagged_spec x (s.v x &&& s.v y) s
    exact ⟨t, ht, fun b _ => by rw [result, BitVec.getLsbD_and], pc, frame⟩
  · obtain ⟨t, ht, result, pc, frame⟩ := writeUnflagged_spec x (s.v x ^^^ s.v y) s
    exact ⟨t, ht, fun b _ => by rw [result, BitVec.getLsbD_xor], pc, frame⟩

/-- Settles O56: an unflagged write after the byte is drawn; what the draw leaves of the `rnd` input is by
whether a byte is listed. -/
theorem randomTakesTheSampledByte : Obligations.RandomTakesTheSampledByte := by
  unfold Obligations.RandomTakesTheSampledByte
  intro x kk s
  obtain ⟨t, ht, result, pc, frame⟩ := writeUnflagged_spec x (s.rndByte &&& kk) s.rndDrawn
  obtain ⟨inputs, count⟩ := frame.rnd (by simp)
  rw [State.rndDrawn_pc] at pc
  refine ⟨t, ht, result, pc, (s.rndDrawn_unchangedBut.trans frame).mono (by simp), fun r rest h => ?_,
    fun h => ?_⟩
  · obtain ⟨hbyte, hdrawn⟩ := s.rnd_of_cons h
    rw [inputs, count, hdrawn]
    exact ⟨hbyte, rfl, rfl⟩
  · obtain ⟨hbyte, hdrawn⟩ := s.rnd_of_nil h
    rw [inputs, count, hdrawn]
    exact ⟨hbyte, h, rfl⟩

end Sys2Proof.Claims
end

section
/-! SUPPORT. The byte on the `rnd` input of a host's step: what RND does with it, and that nothing else reads
it (42_alu_and_skip.md R135). -/

namespace Sys2Proof.Machine

variable {s : State} {op : Word} {o : Host.Outcome State Fault Refusal}

/-- The outcome with other bytes listed on the `rnd` input of the next state. -/
def withRndInputs (l : List Byte) : Host.Outcome State Fault Refusal → Host.Outcome State Fault Refusal
  | .next t => .next (t.setRndInputs l)
  | .fault f => .fault f
  | .refused q => .refused q

/-- A host's step is the step with the byte listed, and the list put back. -/
theorem performStep_eq_settle (r : Byte) (h : s.blocked = false) :
    performStep r s = settle s (withRndInputs s.rndInputs (step (s.setRndInputs [r]))) := by
  rw [performStep, h]
  cases step (s.setRndInputs [r]) <;> rfl

@[simp] theorem withRndInputs_withRndInputs (l l' : List Byte) (o : Host.Outcome State Fault Refusal) :
    withRndInputs l (withRndInputs l' o) = withRndInputs l o := by
  cases o <;> rfl

theorem finishStep_withRndInputs (l : List Byte) (o : Host.Outcome State Fault Refusal) :
    finishStep (withRndInputs l o) = withRndInputs l (finishStep o) := by
  cases o <;> rfl

/-! ### The shared checks and the call stack do not look at the input -/

theorem withRndInputs_requireInRange (l : List Byte) (kind : RangeKind) (last : Nat) :
    withRndInputs l (requireInRange kind last o) = requireInRange kind last (withRndInputs l o) :=
  apply_ite ..

theorem withRndInputs_requireStorable (l : List Byte) (low : Bool) (base last : Nat) :
    withRndInputs l (requireStorable low base last o) = requireStorable low base last (withRndInputs l o) :=
  (withRndInputs_requireInRange l _ _).trans (congrArg _ (apply_ite ..))

theorem withRndInputs_requireIndex (l : List Byte) (kind : RangeKind) (b : Byte)
    (c : Fin 16 → Host.Outcome State Fault Refusal) :
    withRndInputs l (requireIndex kind b c) = requireIndex kind b fun n => withRndInputs l (c n) :=
  apply_dite ..

theorem withRndInputs_execCall (l : List Byte) (nnn : Imm12) (s : State) :
    withRndInputs l (execCall nnn s) = execCall nnn (s.setRndInputs l) :=
  apply_dite (withRndInputs l) ..

theorem withRndInputs_execRet (l : List Byte) (s : State) :
    withRndInputs l (execRet s) = execRet (s.setRndInputs l) :=
  apply_dite (withRndInputs l) ..

theorem withRndInputs_execDrw (l : List Byte) (x y : Reg) (n : Nibble) (s : State) :
    withRndInputs l (execDrw x y n s) = execDrw x y n (s.setRndInputs l) := by
  unfold execDrw
  split
  · rfl
  · exact withRndInputs_requireInRange l _ _

/-! ### Instructions and steps -/

/-- RND apart, an instruction neither reads nor writes the bytes on the `rnd` input. -/
theorem withRndInputs_exec {i : Instr} (hi : ∀ x kk, i ≠ .rnd x kk) (l : List Byte) (s : State) :
    withRndInputs l (exec i s) = exec i (s.setRndInputs l) := by
  cases i with
  | rnd x kk => exact absurd rfl (hi x kk)
  | call nnn => exact withRndInputs_execCall l nnn s
  | ret => exact withRndInputs_execRet l s
  | drw x y n => exact withRndInputs_execDrw l x y n s
  | skp x | sknp x | ldF x =>
    simp only [exec, execSkp, execSknp, execLdF]
    exact withRndInputs_requireIndex l _ _ _
  | ldB x | storeRegs x => exact withRndInputs_requireStorable l _ _ _
  | loadRegs x => exact withRndInputs_requireInRange l _ _
  | sys nnn | cls | jp nnn | seByte x kk | sneByte x kk | seReg x y | ldByte x kk | addByte x kk | ldReg x y
  | orReg x y | andReg x y | xorReg x y | addReg x y | subReg x y | shr x y | subn x y | shl x y
  | sneReg x y | ldI nnn | jpV0 nnn | ldVxDt x | ldVxK x | ldDtVx x | ldStVx x | addI x => rfl

/-- A step that executes no RND neither reads nor writes the bytes on the `rnd` input. -/
theorem step_setRndInputs
    (hi : ∀ op x kk, Claims.Fetches s op → decodeWord op ≠ .ok (.rnd x kk)) (l : List Byte) :
    step (s.setRndInputs l) = withRndInputs l (step s) := by
  cases hkw : s.kw with
  | true =>
    have hkw' : (s.setRndInputs l).kw = true := hkw
    rw [step_of_kw hkw, step_of_kw hkw']
    rfl
  | false =>
    have hkw' : (s.setRndInputs l).kw = false := hkw
    obtain hgt | hpc := Nat.lt_or_ge 0xFFE s.pc.toNat
    · rw [step_of_pc_gt hkw hgt, step_of_pc_gt hkw' hgt]
      rfl
    · obtain ⟨op, hf⟩ : ∃ op, Claims.Fetches s op := ⟨_, hkw, hpc, rfl⟩
      have hf' := fetches_setRndInputs l hf
      cases hd : decodeWord op with
      | error e =>
        rw [step_of_decodeWord_error hf hd, step_of_decodeWord_error hf' hd]
        rfl
      | ok i =>
        have hne : ∀ x kk, i ≠ .rnd x kk := fun x kk h => hi op x kk hf (h ▸ hd)
        rw [step_of_decodeWord_ok hf hd, step_of_decodeWord_ok hf' hd, ← finishStep_withRndInputs,
          withRndInputs_exec hne]
        rfl

/-- The host's byte is all that a step of RND takes from the `rnd` input. -/
theorem performStep_rnd {x : Reg} {kk : Byte} (hf : Claims.Fetches s op)
    (hd : decodeWord op = .ok (.rnd x kk)) (r : Byte) :
    performStep r s = (.ok, (s.clearDraw.setV x (r &&& kk)).advance.timerPhase) := by
  rw [performStep_eq_settle r (State.blocked_of_fetches hf),
    step_of_decodeWord_ok (fetches_setRndInputs [r] hf) hd]
  rfl

end Sys2Proof.Machine

namespace Sys2Proof.Claims

open Machine

/-- Settles O30: the state RND leaves, phase by phase; and every other step commutes with listing the byte,
which is taken off again. -/
theorem randomIsTheSuppliedByteMasked : Obligations.RandomIsTheSuppliedByteMasked := by
  unfold Obligations.RandomIsTheSuppliedByteMasked
  constructor
  · intro x kk s op r hf hd
    obtain ⟨t, ht, result, pc, frame⟩ := writeUnflagged_spec x (r &&& kk) s.clearDraw
    cases ht
    refine ⟨_, performStep_rnd hf hd r, result, pc, ?_⟩
    exact ((s.clearDraw_unchangedBut.trans frame).trans (State.timerPhase_unchangedBut _)).mono (by simp)
  · intro s r r' hrnd
    change performStep r s = performStep r' s
    cases hblocked : s.blocked with
    | true => simp [performStep, hblocked]
    | false =>
      simp only [performStep_eq_settle _ hblocked, step_setRndInputs hrnd, withRndInputs_withRndInputs]

end Sys2Proof.Claims
end

section
/-! SUPPORT. What CLS and DRW leave: the pixels, VF, DRAW, PC and the frame (43_draw.md R140, R141). -/

namespace Sys2Proof.Machine

open Sys2Proof.Claims

variable {x y : Reg} {n : Nibble} {s t : State}

/-! ### Frames -/

theorem State.setFb_unchangedBut (s : State) (f : FrameBuffer) : UnchangedBut [.pixels] s (s.setFb f) := by
  constructor <;> simp

theorem State.setDraw_unchangedBut (s : State) (b : Bool) : UnchangedBut [.draw] s (s.setDraw b) := by
  constructor <;> simp

theorem State.clearScreen_unchangedBut (s : State) (setsDraw : Bool) :
    UnchangedBut [.pixels, .draw] s (s.clearScreen setsDraw) :=
  (s.setFb_unchangedBut _).trans (State.setDraw_unchangedBut _ _)

theorem State.drawSprite_unchangedBut (s : State) (x0 y0 : Nat) (rows : List Byte) :
    UnchangedBut [.pixels, .v 15, .draw] s (s.drawSprite x0 y0 rows) :=
  ((s.setFb_unchangedBut _).trans (State.setV_unchangedBut _ vf _)).trans
    (State.setDraw_unchangedBut _ _)

theorem exec_drw_unchangedBut (h : exec (.drw x y n) s = .next t) :
    UnchangedBut [.v 15, .pixels, .draw, .pc] s t := by
  obtain ⟨-, rfl⟩ := execDrw_eq_next.1 h
  exact ((s.drawSprite_unchangedBut _ _ _).trans (State.setPc_unchangedBut _ _)).mono (by simp)

/-! ### The clear screen -/

theorem State.pixel_clearScreen (s : State) (setsDraw : Bool) (px py : Nat) :
    (s.clearScreen setsDraw).fb.pixel px py = false := by
  simp [FrameBuffer.pixel]

/-! ### The sprite that a draw reads -/

/-- The sprite bytes stand at I and above, one for each row. -/
theorem spriteBit_readBlock_iff (m : Memory) (a k r c : Nat) :
    spriteBit (m.readBlock a k) r c ↔ r < k ∧ c < 8 ∧ (m.read (a + r)).getLsbD (7 - c) = true := by
  simp [spriteBit, and_left_comm]

/-- A set sprite bit somewhere on the screen is a set bit of the bytes the draw reads, on the pixel it maps
onto. -/
theorem exists_spriteBitAt_iff (x y : Reg) (n : Nibble) (s : State) (P : Nat → Nat → Prop) :
    (∃ px < 64, ∃ py < 32, SpriteBitAt x y n s px py ∧ P px py) ↔
      ∃ r c, spriteBit (s.mem.readBlock (s.addr 0) n.toNat) r c ∧
        P (((s.v x).toNat + c) % 64) (((s.v y).toNat + r) % 32) := by
  simp only [spriteBit_readBlock_iff]
  constructor
  · rintro ⟨_, -, _, -, ⟨r, hr, c, hc, hbit, rfl, rfl⟩, hP⟩
    exact ⟨r, c, ⟨hr, hc, hbit⟩, hP⟩
  · rintro ⟨r, c, ⟨hr, hc, hbit⟩, hP⟩
    exact ⟨_, Nat.mod_lt _ (by decide), _, Nat.mod_lt _ (by decide),
      ⟨r, hr, c, hc, hbit, rfl, rfl⟩, hP⟩

/-- The sprite's set pixels depend on I, the bytes above it, Vx and Vy only. -/
theorem spriteBitAt_congr (hi : t.i = s.i) (hmem : ∀ a, t.mem.read a = s.mem.read a) (hx : t.v x = s.v x)
    (hy : t.v y = s.v y) (px py : Nat) : SpriteBitAt x y n t px py ↔ SpriteBitAt x y n s px py := by
  simp only [SpriteBitAt, hi, hmem, hx, hy]

/-! ### What a draw does -/

/-- A draw completes exactly when it has no row or its last byte lies in memory. -/
theorem exists_exec_drw_iff :
    (∃ t, exec (.drw x y n) s = .next t) ↔ n.toNat = 0 ∨ s.i.toNat + n.toNat - 1 ≤ 0xFFF := by
  have hlast : n.toNat = 0 ∨ s.addr (n.toNat - 1) = s.i.toNat + n.toNat - 1 := by
    simp only [State.addr]
    omega
  constructor
  · rintro ⟨t, h⟩
    obtain ⟨hbound, -⟩ := execDrw_eq_next.1 h
    omega
  · exact fun hbound => ⟨_, execDrw_eq_next.2 ⟨by omega, rfl⟩⟩

theorem length_sprite_le (m : Memory) (a : Nat) (n : Nibble) : (m.readBlock a n.toNat).length ≤ 32 := by
  rw [Memory.length_readBlock]
  omega

/-- VF holds the collision flag, so it is 1 exactly when a set sprite bit meets a lit pixel. -/
theorem State.drawSprite_vf_eq_one_iff (s : State) (x0 y0 : Nat) (rows : List Byte)
    (hlen : rows.length ≤ 32) : (s.drawSprite x0 y0 rows).v 15 = 1 ↔
      ∃ r c, spriteBit rows r c ∧ s.fb.pixel (x0 + c) (y0 + r) = true := by
  have hvf : (s.drawSprite x0 y0 rows).v 15 = flagByte (blitRows ⟨s.fb, false⟩ x0 y0 rows).collision :=
    State.v_setV_self _ vf _
  have flag_eq_one : ∀ c, flagByte c = 1 ↔ c = true := by decide
  rw [hvf, flag_eq_one, (blitRows_spec x0 y0 rows hlen ⟨s.fb, false⟩ 0 0).2]
  simp

/-- R142 (2): a draw changes the pixels under a set sprite bit and no other. -/
theorem exec_drw_pixel_ne_iff (h : exec (.drw x y n) s = .next t) {px py : Nat} (hpx : px < 64)
    (hpy : py < 32) : t.fb.pixel px py ≠ s.fb.pixel px py ↔ SpriteBitAt x y n s px py := by
  obtain ⟨-, rfl⟩ := execDrw_eq_next.1 h
  refine (blitRows_spec _ _ _ (length_sprite_le ..) ⟨s.fb, false⟩ px py).1.trans ?_
  simp only [Nat.mod_eq_of_lt hpx, Nat.mod_eq_of_lt hpy, spriteBit_readBlock_iff, SpriteBitAt, State.addr,
    Nat.add_zero, and_assoc, exists_and_left]

/-- R142 (3): VF is 1 exactly when a set sprite bit maps onto a pixel that was 1. -/
theorem exec_drw_vf_eq_one_iff (h : exec (.drw x y n) s = .next t) :
    t.v 15 = 1 ↔ ∃ px < 64, ∃ py < 32, SpriteBitAt x y n s px py ∧ s.fb.pixel px py = true := by
  obtain ⟨-, rfl⟩ := execDrw_eq_next.1 h
  rw [State.advance_v, State.drawSprite_vf_eq_one_iff _ _ _ _ (length_sprite_le ..), exists_spriteBitAt_iff]
  simp only [FrameBuffer.pixel_mod]

end Sys2Proof.Machine
end

section
/-! SUPPORT. CLS, DRW, and the same DRW twice (43_draw.md R140 to R142). -/

namespace Sys2Proof.Claims

open Machine

/-- Settles O31: the cleared framebuffer pixel by pixel, and the frame; with CLS_SETS_DRAW = false DRAW is
written with its own value. -/
theorem clearScreenClearsEveryPixel : Obligations.ClearScreenClearsEveryPixel := by
  unfold Obligations.ClearScreenClearsEveryPixel
  refine fun s => ⟨⟨_, rfl, s.pixel_clearScreen true, rfl, State.toNat_advance_pc _,
    (s.clearScreen_unchangedBut _).trans (State.setPc_unchangedBut _ _)⟩, s.pixel_clearScreen false, ?_⟩
  exact s.setFb_unchangedBut _

/-- Settles O32: the range check as the only error; else the pixels, VF and the frame of a draw that
completed, each by its own lemma. -/
theorem drawXorsTheSpriteAndReportsCollision : Obligations.DrawXorsTheSpriteAndReportsCollision := by
  unfold Obligations.DrawXorsTheSpriteAndReportsCollision
  intro x y n s
  constructor
  · exact fun hn hlast => ((exec_endsBy (.drw x y n) s).eq_fault_iff _).2 ⟨hn, hlast, rfl⟩
  · intro hbound
    obtain ⟨t, h⟩ := exists_exec_drw_iff.2 hbound
    have collision := exec_drw_vf_eq_one_iff h
    refine ⟨t, h, fun px hpx py hpy => exec_drw_pixel_ne_iff h hpx hpy, collision.2, fun clear => ?_,
      exec_drw_draw h, ?_, exec_drw_unchangedBut h⟩
    · refine (exec_writesFlag_vf (i := .drw x y n) trivial h).resolve_right fun hone => ?_
      obtain ⟨px, hpx, py, hpy, hbit, hlit⟩ := collision.1 hone
      simp [clear px hpx py hpy hbit] at hlit
    · rw [exec_pc_of_advancesByTwo (i := .drw x y n) trivial h, BitVec.toNat_add]
      rfl

/-- Settles O33: both draws toggle the pixels under the same sprite bits, so the second undoes the first, and
the pixels it finds lit there are those that were 0 before the first. -/
theorem drawingTwiceRestoresTheScreen : Obligations.DrawingTwiceRestoresTheScreen := by
  unfold Obligations.DrawingTwiceRestoresTheScreen
  intro x y n s t t' h hfb hi hmem hx hy
  obtain ⟨u, hu⟩ : ∃ u, exec (.drw x y n) t' = .next u :=
    exists_exec_drw_iff.2 (hi ▸ exists_exec_drw_iff.1 ⟨t, h⟩)
  have same := spriteBitAt_congr (n := n) hi hmem hx hy
  have first {px py : Nat} (hpx : px < 64) (hpy : py < 32) :
      t.fb.pixel px py ≠ s.fb.pixel px py ↔ SpriteBitAt x y n s px py := exec_drw_pixel_ne_iff h hpx hpy
  have second {px py : Nat} (hpx : px < 64) (hpy : py < 32) :
      u.fb.pixel px py ≠ t.fb.pixel px py ↔ SpriteBitAt x y n s px py := by
    rw [← hfb, exec_drw_pixel_ne_iff hu hpx hpy, same]
  refine ⟨u, hu, FrameBuffer.ext_pixel fun px hpx py hpy => ?_,
    exec_writesFlag_vf (i := .drw x y n) trivial hu, ?_⟩
  · have toggledTwice := (second hpx hpy).trans (first hpx hpy).symm
    revert toggledTwice
    cases u.fb.pixel px py <;> cases t.fb.pixel px py <;> cases s.fb.pixel px py <;> decide
  · rw [exec_drw_vf_eq_one_iff hu, hfb]
    refine exists_congr fun px => and_congr_right fun hpx => exists_congr fun py =>
      and_congr_right fun hpy => ?_
    rw [same]
    refine and_congr_right fun hbit => ?_
    have toggled := (first hpx hpy).2 hbit
    rw [Bool.eq_not.2 toggled, Bool.not_eq_true']

/-- Refutes O34: the top row of glyph 0, drawn twice at (0, 0) where its four pixels are lit before the first
draw; the first draw clears them, so the second meets no lit pixel. -/
theorem not_secondDrawAlwaysCollides : ¬ Obligations.SecondDrawAlwaysCollides := by
  unfold Obligations.SecondDrawAlwaysCollides
  intro h
  have collides := h 0 1 1 (State.reset.setFb (State.reset.fb.set 0 0xF)) _ _ (by decide) (by decide) rfl rfl
    ⟨0, by decide, 7, by decide, by decide⟩
  exact absurd collides (by decide)

end Sys2Proof.Claims
end

section
/-! SUPPORT. What steps and loads leave of the state during a key-wait, one operation at a time and over a
script of them (40_step_and_dispatch.md R81, 44_keys_and_timers.md R157). -/

namespace Sys2Proof.Machine

variable {s : State}

theorem UnchangedBut.refl (l : List Part) (s : State) : UnchangedBut l s s := by
  constructor <;> simp

/-- A refused image leaves the state, an accepted one is written to memory (20_memory.md R48). -/
theorem perform_load_unchangedBut (image : List Byte) (s : State) :
    UnchangedBut [.mem] s (perform (.load image) s).2 := by
  by_cases h : 3584 < image.length
  · rw [perform_load_of_gt s h]
    exact .refl _ s
  · rw [perform_load_of_le s (Nat.le_of_not_gt h)]
    exact s.setMem_unchangedBut _

theorem perform_unchangedBut_of_stepOrLoad {o : Operation} (ho : Claims.StepOrLoad o) (hk : s.kw = true) :
    UnchangedBut [.mem] s (perform o s).2 := by
  cases o with
  | step r =>
    rw [perform_step_of_kw hk r]
    exact .refl _ s
  | load image => exact perform_load_unchangedBut image s
  | reset | deliverKey key => exact ho.elim

theorem runScript_unchangedBut_of_stepOrLoad {os : List Operation} (hos : ∀ o ∈ os, Claims.StepOrLoad o)
    (hk : s.kw = true) : UnchangedBut [.mem] s (runScript os s) := by
  induction os generalizing s with
  | nil => exact .refl _ s
  | cons o os ih =>
    obtain ⟨ho, hos⟩ := List.forall_mem_cons.1 hos
    have first := perform_unchangedBut_of_stepOrLoad ho hk
    have rest := ih hos (perform_kw_of_stepOrLoad ho hk)
    exact (first.trans rest).mono (by simp)

end Sys2Proof.Machine

namespace Sys2Proof.Claims

open Machine

/-- Settles O58: during the wait a step is blocked, and a load touches memory only, at KW = 1 as at any
other. -/
theorem keyWaitIsKeptByStepsAndLoads : Obligations.KeyWaitIsKeptByStepsAndLoads := by
  unfold Obligations.KeyWaitIsKeptByStepsAndLoads
  exact fun _ _ hk ho => ⟨perform_kw_of_stepOrLoad ho hk, perform_unchangedBut_of_stepOrLoad ho hk⟩

end Sys2Proof.Claims
end

section
/-! SUPPORT. The two updates of the key inputs and their frames: a key flag, and the key-wait
(10_state.md R19, R20). -/

namespace Sys2Proof.Machine

theorem State.key_setKey_self (s : State) (k : Key) (b : Bool) : (s.setKey k b).key k = b := by
  simp [State.key_setKey]

theorem State.setKey_unchangedBut (s : State) (k : Key) (b : Bool) :
    UnchangedBut [.key k] s (s.setKey k b) := by
  constructor
  case key =>
    intro q hq
    have hne : q ≠ k := fun h => hq (by simp [h])
    simp [State.key_setKey, hne]
  all_goals simp

theorem State.setKw_unchangedBut (s : State) (b : Bool) : UnchangedBut [.kw] s (s.setKw b) := by
  constructor <;> simp

theorem State.setKwReg_unchangedBut (s : State) (r : Reg) : UnchangedBut [.kwReg] s (s.setKwReg r) := by
  constructor <;> simp

end Sys2Proof.Machine
end

section
/-! SUPPORT. The key tests: the flag decides the skip and is cleared either way
(44_keys_and_timers.md R150, R151). -/

namespace Sys2Proof.Machine

/-- Everything a key test does with its key, whichever way it goes by the flag. -/
theorem State.skipIf_setKey_spec (s : State) (k : Key) {c : Bool} {p : Prop} [Decidable p]
    (h : c = true ↔ p) :
    ((s.setKey k false).skipIf c).key k = false ∧
      ((s.setKey k false).skipIf c).pc.toNat = (s.pc.toNat + if p then 4 else 2) % 65536 ∧
      UnchangedBut [.key k, .pc] s ((s.setKey k false).skipIf c) :=
  ⟨s.key_setKey_self k false, State.toNat_skipIf_pc _ h,
    (s.setKey_unchangedBut k false).trans (State.setPc_unchangedBut _ _)⟩

end Sys2Proof.Machine

namespace Sys2Proof.Claims

open Machine

/-- Settles O35: the errors are those the two rules list; otherwise SKP skips by the key's flag and SKNP by
its negation. -/
theorem keyTestsSkipAndConsume : Obligations.KeyTestsSkipAndConsume := by
  unfold Obligations.KeyTestsSkipAndConsume
  refine fun x s => ⟨fun high => ⟨?_, ?_⟩, fun k hk => ⟨?_, ?_⟩⟩
  · exact ((exec_endsBy (.skp x) s).eq_fault_iff _).2 ⟨high, rfl⟩
  · exact ((exec_endsBy (.sknp x) s).eq_fault_iff _).2 ⟨high, rfl⟩
  · exact ⟨_, execSkp_eq_next.2 ⟨k, hk.symm, rfl⟩, s.skipIf_setKey_spec k Iff.rfl⟩
  · exact ⟨_, execSknp_eq_next.2 ⟨k, hk.symm, rfl⟩, s.skipIf_setKey_spec k (by simp)⟩

end Sys2Proof.Claims
end

section
/-! SUPPORT. The timer instructions, alone and before the timer phase of their step
(44_keys_and_timers.md R153 to R155). -/

namespace Sys2Proof.Machine

theorem State.setDt_unchangedBut (s : State) (b : Byte) : UnchangedBut [.dt] s (s.setDt b) := by
  constructor <;> simp

theorem State.setSt_unchangedBut (s : State) (b : Byte) : UnchangedBut [.st] s (s.setSt b) := by
  constructor <;> simp

theorem exec_ldDtVx_spec (x : Reg) (s : State) :
    ∃ t, exec (.ldDtVx x) s = .next t ∧ t.dt = s.v x ∧ t.pc.toNat = (s.pc.toNat + 2) % 65536 ∧
      UnchangedBut [.dt, .pc] s t :=
  ⟨_, rfl, rfl, State.toNat_advance_pc _,
    (s.setDt_unchangedBut _).trans (State.setPc_unchangedBut _ _)⟩

theorem exec_ldStVx_spec (x : Reg) (s : State) :
    ∃ t, exec (.ldStVx x) s = .next t ∧ t.st = s.v x ∧ t.pc.toNat = (s.pc.toNat + 2) % 65536 ∧
      UnchangedBut [.st, .pc] s t :=
  ⟨_, rfl, rfl, State.toNat_advance_pc _,
    (s.setSt_unchangedBut _).trans (State.setPc_unchangedBut _ _)⟩

variable {s u : State} {op : Word} {i : Instr}

/-- The completed instruction of a step, and the timer phase after it (40_step_and_dispatch.md R80). -/
theorem step_of_exec (hf : Claims.Fetches s op) (hd : decodeWord op = .ok i)
    (hexec : exec i s.clearDraw = .next u) : step s = .next u.timerPhase := by
  obtain ⟨-, -, fetched⟩ := Claims.stepRunsTheDecodedInstruction s
  obtain ⟨-, decoded⟩ := fetched op hf
  obtain ⟨-, completed⟩ := decoded i hd
  exact completed u hexec

theorem State.toNat_timerPhase_dt (s : State) : s.timerPhase.dt.toNat = s.dt.toNat - 1 :=
  toNat_countDown s.dt

theorem State.toNat_timerPhase_st (s : State) : s.timerPhase.st.toNat = s.st.toNat - 1 :=
  toNat_countDown s.st

/-- The sound goes on where the sound timer has not run out (10_state.md R22). -/
theorem State.timerPhase_soundOn_iff (s : State) :
    s.timerPhase.outputs.soundOn = true ↔ 2 ≤ s.st.toNat := by
  obtain ⟨-, -, -, soundOn, -⟩ := Claims.outputsShowTheState s.timerPhase
  have counted := s.toNat_timerPhase_st
  rw [soundOn]
  bv_omega

end Sys2Proof.Machine

namespace Sys2Proof.Claims

open Machine

/-- Settles O37: the byte each instruction moves, and the timer phase applied to the timers it left. -/
theorem timerInstructionsMoveTheByte : Obligations.TimerInstructionsMoveTheByte := by
  unfold Obligations.TimerInstructionsMoveTheByte
  refine fun x s => ⟨writeUnflagged_spec x s.dt s, exec_ldDtVx_spec x s, exec_ldStVx_spec x s,
    fun op hf => ⟨fun hd => ?_, fun hd => ?_, fun hd => ?_⟩⟩
  · obtain ⟨u, hu, result, -, frame⟩ := writeUnflagged_spec x s.dt s.clearDraw
    have dt : u.dt = s.dt := frame.dt (by simp)
    refine ⟨_, step_of_exec hf hd hu, result, ?_⟩
    rw [State.toNat_timerPhase_dt, dt]
  · obtain ⟨u, hu, result, -⟩ := exec_ldDtVx_spec x s.clearDraw
    refine ⟨_, step_of_exec hf hd hu, ?_⟩
    rw [State.toNat_timerPhase_dt, result, State.clearDraw_v]
  · obtain ⟨u, hu, result, -⟩ := exec_ldStVx_spec x s.clearDraw
    rw [State.clearDraw_v] at result
    rw [← result]
    exact ⟨_, step_of_exec hf hd hu, u.toNat_timerPhase_st, u.timerPhase_sndEnd_iff,
      u.timerPhase_soundOn_iff⟩

end Sys2Proof.Claims
end

section
/-! SUPPORT. The delivery of a key, in either state of the key-wait (44_keys_and_timers.md R156). -/

namespace Sys2Proof.Machine

variable {s : State}

theorem deliverKey_of_waiting (k : Key) (hk : s.kw = true) :
    deliverKey k s = ((s.setKey k true).setV s.kwReg (.ofNat 8 k.val)).setKw false := by
  simp [deliverKey, hk]

theorem deliverKey_of_not_waiting (k : Key) (hk : s.kw = false) : deliverKey k s = s.setKey k true := by
  simp [deliverKey, hk]

theorem toNat_keyByte (k : Key) : (BitVec.ofNat 8 k.val).toNat = k.val := by
  rw [BitVec.toNat_ofNat]
  omega

/-- Everything a delivery does that ends a wait. -/
theorem deliverKey_resolves (k : Key) (hk : s.kw = true) :
    (deliverKey k s).key k = true ∧ (deliverKey k s).kw = false ∧
      ((deliverKey k s).v s.kwReg).toNat = k.val ∧
      UnchangedBut [.key k, .v s.kwReg, .kw] s (deliverKey k s) := by
  rw [deliverKey_of_waiting k hk]
  refine ⟨s.key_setKey_self k true, rfl, ?_, ((s.setKey_unchangedBut k true).trans
    (State.setV_unchangedBut _ _ _)).trans (State.setKw_unchangedBut _ _)⟩
  rw [State.setKw_v, State.v_setV_self, toNat_keyByte]

end Sys2Proof.Machine

namespace Sys2Proof.Claims

open Machine

/-- Settles O38: by KW; without a wait the flag is all that is written. -/
theorem deliverKeyRecordsAndResolves : Obligations.DeliverKeyRecordsAndResolves := by
  unfold Obligations.DeliverKeyRecordsAndResolves
  intro k s
  refine ⟨deliverKey k s, rfl, ?_⟩
  cases hk : s.kw with
  | true =>
    obtain ⟨key, kw, v, frame⟩ := deliverKey_resolves k hk
    exact ⟨key, kw, fun _ => v, fun _ => frame, nofun⟩
  | false =>
    rw [deliverKey_of_not_waiting k hk]
    exact ⟨s.key_setKey_self k true, hk, nofun, nofun, fun _ => s.setKey_unchangedBut k true⟩

end Sys2Proof.Claims
end

section
/-! SUPPORT. The key-wait from the instruction that enters it to the delivery that ends it
(44_keys_and_timers.md R152, R157). -/

namespace Sys2Proof.Machine

variable {s u : State} {op : Word} {i : Instr}

theorem exec_ldVxK_spec (x : Reg) (s : State) :
    ∃ t, exec (.ldVxK x) s = .next t ∧ t.kw = true ∧ t.kwReg = x ∧
      t.pc.toNat = (s.pc.toNat + 2) % 65536 ∧ UnchangedBut [.kw, .kwReg, .pc] s t :=
  ⟨_, rfl, rfl, rfl, State.toNat_advance_pc _, ((s.setKw_unchangedBut true).trans
    (State.setKwReg_unchangedBut _ x)).trans (State.setPc_unchangedBut _ _)⟩

/-- The completed instruction of a host's step, between DRAW <- 0 and the timer phase
(40_step_and_dispatch.md R80). -/
theorem performStep_of_exec {r : Byte} (hf : Claims.Fetches s op) (hd : decodeWord op = .ok i)
    (hexec : exec i (s.setRndInputs [r]).clearDraw = .next u) :
    performStep r s = (.ok, u.timerPhase.setRndInputs s.rndInputs) := by
  rw [performStep_eq_settle r (State.blocked_of_fetches hf),
    step_of_exec (fetches_setRndInputs [r] hf) hd hexec]
  rfl

end Sys2Proof.Machine

namespace Sys2Proof.Claims

open Machine

/-- Settles O39: the wait the step enters is kept by each operation of the script, and so are KW and KWREG,
by which the delivery goes. -/
theorem keyWaitSuspendsUntilDelivery : Obligations.KeyWaitSuspendsUntilDelivery := by
  unfold Obligations.KeyWaitSuspendsUntilDelivery
  intro s op x r hf hd
  obtain ⟨u, hu, kw, kwReg, pc, -⟩ := exec_ldVxK_spec x (s.setRndInputs [r]).clearDraw
  refine ⟨_, performStep_of_exec hf hd hu, kw, pc, fun os hos => ?_⟩
  have frame := runScript_unchangedBut_of_stepOrLoad hos
    (s := u.timerPhase.setRndInputs s.rndInputs) kw
  have waiting := (frame.kw (by simp)).trans kw
  have target := (frame.kwReg (by simp)).trans kwReg
  refine ⟨frame, perform_step_of_kw waiting, fun k => ?_⟩
  obtain ⟨key, ended, v, delivered⟩ := deliverKey_resolves k waiting
  rw [target] at v delivered
  exact ⟨_, rfl, ended, v, key, delivered.mono (by simp)⟩

/-- Settles O36: the instruction leaves the timers to the timer phase, which leaves KW, by which the next step
is blocked. -/
theorem awaitKeyEntersKeyWait : Obligations.AwaitKeyEntersKeyWait := by
  unfold Obligations.AwaitKeyEntersKeyWait
  refine fun x s => ⟨exec_ldVxK_spec x s, fun op hf hd => ?_⟩
  obtain ⟨u, hu, kw, -, -, frame⟩ := exec_ldVxK_spec x s.clearDraw
  have dt : u.dt = s.dt := frame.dt (by simp)
  have st : u.st = s.st := frame.st (by simp)
  refine ⟨_, step_of_exec hf hd hu, kw, ?_, ?_, step_of_kw kw⟩
  · rw [State.toNat_timerPhase_dt, dt]
  · rw [State.toNat_timerPhase_st, st]

end Sys2Proof.Claims
end

section
/-! SUPPORT. A block stored at I and a block of registers loaded, with the frames of the two updates
(45_index_and_memory.md R173, R175, R176). -/

namespace Sys2Proof.Machine

/-- Everything a completed store at I does: its bytes from I on, PC + 2, and nothing else. -/
theorem State.advance_setMem_writeBlock_spec {s t : State} {bs : List Byte}
    (h : t = (s.setMem (s.mem.writeBlock (s.addr 0) bs)).advance) :
    (∀ (k : Nat) (hk : k < bs.length), t.mem.read (s.addr k) = bs[k]) ∧
      (∀ a, a < s.addr 0 ∨ s.addr bs.length ≤ a → t.mem.read a = s.mem.read a) ∧
      t.pc.toNat = (s.pc.toNat + 2) % 65536 ∧ UnchangedBut [.mem, .pc] s t := by
  subst h
  exact ⟨fun _ hk => Memory.read_writeBlock_of_lt hk,
    fun _ ha => Memory.read_writeBlock_of_outside ha, State.toNat_advance_pc _,
    (s.setMem_unchangedBut _).trans (State.setPc_unchangedBut _ _)⟩

/-- The two checks of a store in their order, at either value of LOW_MEM_WRITABLE, around a next state that
meets `P` (20_memory.md R45, R46; 60_exceptions.md R195). -/
theorem requireStorable_spec {base last : Nat} {t : State} {P : State → Prop} (ht : P t) :
    (0xFFF < last →
      requireStorable false base last (.next t) = .fault (.outOfRange .memWrite last)) ∧
    (last ≤ 0xFFF → base < 0x200 →
      requireStorable false base last (.next t) = .fault (.outOfRange .memProtect base)) ∧
    (last ≤ 0xFFF → 0x200 ≤ base →
      ∃ u, requireStorable false base last (.next t) = .next u ∧ P u) ∧
    (last ≤ 0xFFF → ∃ u, requireStorable true base last (.next t) = .next u ∧ P u) := by
  refine ⟨fun high => ?_, fun inside low => ?_, fun inside writable => ?_, fun inside => ?_⟩
  · exact requireStorable_eq_fault.2 (.inl ⟨high, rfl⟩)
  · exact requireStorable_eq_fault.2 (.inr ⟨inside, .inl ⟨rfl, low, rfl⟩⟩)
  · exact ⟨t, requireStorable_eq_next.2 ⟨inside, .inr writable, rfl⟩, ht⟩
  · exact ⟨t, requireStorable_eq_next.2 ⟨inside, .inl rfl, rfl⟩, ht⟩

theorem State.v_setRegs_writeRegBlock_of_lt (s : State) (bs : List Byte) {q : Reg}
    (h : q.val < bs.length) : (s.setRegs (writeRegBlock s.regs 0 bs)).v q = bs[q.val] := by
  simp [State.v, getElem_writeRegBlock, h]

theorem State.setRegs_writeRegBlock_unchangedBut (s : State) {bs : List Byte} {x : Reg}
    (h : bs.length = x.val + 1) :
    UnchangedBut (((List.finRange 16).filter fun k => k.val ≤ x.val).map .v) s
      (s.setRegs (writeRegBlock s.regs 0 bs)) := by
  constructor
  case v =>
    intro r hr
    have above : x.val < r.val := by simpa using hr
    exact s.v_setRegs_writeRegBlock_of_gt bs (by omega)
  all_goals simp

/-- Everything LD Vx, [I] does where its block ends inside memory (45_index_and_memory.md R176). -/
theorem exec_loadRegs_spec (x : Reg) {s : State} (h : s.addr x.val ≤ 0xFFF) :
    ∃ t, exec (.loadRegs x) s = .next t ∧
      (∀ k : Reg, k.val ≤ x.val → t.v k = s.mem.read (s.addr k.val)) ∧
      t.pc.toNat = (s.pc.toNat + 2) % 65536 ∧
      UnchangedBut (.pc :: ((List.finRange 16).filter fun k => k.val ≤ x.val).map .v) s t := by
  have length_block := Memory.length_readBlock s.mem (s.addr 0) (x.val + 1)
  have loaded_frame := s.setRegs_writeRegBlock_unchangedBut length_block
  refine ⟨_, execLoadRegs_eq_next.2 ⟨h, rfl⟩, fun k hk => ?_, State.toNat_advance_pc _,
    (loaded_frame.trans (State.setPc_unchangedBut _ _)).mono (by simp)⟩
  have in_block : k.val < (s.mem.readBlock (s.addr 0) (x.val + 1)).length := by omega
  exact (s.v_setRegs_writeRegBlock_of_lt _ in_block).trans (Memory.getElem_readBlock ..)

end Sys2Proof.Machine

namespace Sys2Proof.Claims

open Machine

/-- Settles O44: the load by itself, and the load of what the store left at the same addresses. -/
theorem registerLoadReadsTheBlock : Obligations.RegisterLoadReadsTheBlock := by
  unfold Obligations.RegisterLoadReadsTheBlock
  refine ⟨fun x s => ⟨fun high => ?_, exec_loadRegs_spec x⟩, fun x s t t' hstore hmem hi => ?_⟩
  · exact ((exec_endsBy (.loadRegs x) s).eq_fault_iff _).2 ⟨high, rfl⟩
  · have same_addr (k : Nat) : t'.addr k = s.addr k := by rw [State.addr, hi, State.addr]
    obtain ⟨hlast, -, -⟩ := execStoreRegs_eq_next.1 hstore
    obtain ⟨u, hu, loaded, -, -⟩ := exec_loadRegs_spec x (same_addr x ▸ hlast)
    refine ⟨u, hu, fun k hk => ?_⟩
    rw [loaded k hk, same_addr, hmem, exec_storeRegs_read hstore hk]

/-- Settles O42: a store of the three digits between the two checks of a store. -/
theorem decimalDigitsAreStored : Obligations.DecimalDigitsAreStored := by
  unfold Obligations.DecimalDigitsAreStored
  intro x s Stored
  have stored : Stored (s.setMem (s.mem.writeBlock (s.addr 0) (decimalDigits (s.v x)))).advance := by
    obtain ⟨read, outside, pc, frame⟩ :=
      State.advance_setMem_writeBlock_spec (s := s) (bs := decimalDigits (s.v x)) rfl
    have byte_lt := (s.v x).isLt
    refine ⟨?_, ?_, ?_, outside, pc, frame⟩
    · exact (congrArg BitVec.toNat (read 0 (by simp))).trans (Nat.mod_eq_of_lt (by omega))
    · exact (congrArg BitVec.toNat (read 1 (by simp))).trans (Nat.mod_eq_of_lt (by omega))
    · exact (congrArg BitVec.toNat (read 2 (by simp))).trans (Nat.mod_eq_of_lt (by omega))
  exact requireStorable_spec stored

/-- Settles O43: a store of the block V0 to Vx between the two checks of a store. -/
theorem registerDumpStoresTheBlock : Obligations.RegisterDumpStoresTheBlock := by
  unfold Obligations.RegisterDumpStoresTheBlock
  intro x s Stored
  have stored : Stored (s.setMem (s.mem.writeBlock (s.addr 0) (s.regBlock x))).advance := by
    obtain ⟨read, outside, pc, frame⟩ :=
      State.advance_setMem_writeBlock_spec (s := s) (bs := s.regBlock x) rfl
    rw [State.length_regBlock] at outside
    refine ⟨fun k hk => ?_, outside, pc, frame⟩
    have in_block : k.val < (s.regBlock x).length := by rw [State.length_regBlock]; omega
    exact (read k in_block).trans (s.getElem_regBlock x k in_block)
  exact requireStorable_spec stored

end Sys2Proof.Claims
end

section
/-! SUPPORT. The writes of I alone, as numbers, and their frame (45_index_and_memory.md R170 to R172). -/

namespace Sys2Proof.Machine

theorem State.setI_unchangedBut (s : State) (w : Word) : UnchangedBut [.i] s (s.setI w) := by
  constructor <;> simp

/-- Everything a write of I and no more than that does, with the value written as a number. -/
theorem State.advance_setI_spec (s : State) {w : Word} {n : Nat} (h : w.toNat = n) :
    (s.setI w).advance.i.toNat = n ∧ (s.setI w).advance.pc.toNat = (s.pc.toNat + 2) % 65536 ∧
      UnchangedBut [.i, .pc] s (s.setI w).advance :=
  ⟨h, State.toNat_advance_pc _, (s.setI_unchangedBut w).trans (State.setPc_unchangedBut _ _)⟩

theorem toNat_add_zextByte (w : Word) (b : Byte) :
    (w + zextByte b).toNat = (w.toNat + b.toNat) % 65536 := by
  simp only [zextByte, BitVec.toNat_add, BitVec.toNat_setWidth]
  omega

theorem toNat_glyphAddr (d : Fin 16) : (glyphAddr d).toNat = 5 * d.val :=
  Nat.mod_eq_of_lt (by omega)

end Sys2Proof.Machine

namespace Sys2Proof.Claims

open Machine

/-- Settles O40: two writes of I, the address and the sum read as numbers. -/
theorem indexLoadAndAdd : Obligations.IndexLoadAndAdd := by
  unfold Obligations.IndexLoadAndAdd
  exact ⟨fun nnn s => ⟨_, rfl, s.advance_setI_spec (toNat_zextNNN nnn)⟩,
    fun x s => ⟨_, rfl, s.advance_setI_spec (toNat_add_zextByte s.i (s.v x))⟩⟩

/-- Settles O41: the error is the one R172 lists; otherwise Vx is the number of a glyph and I its address. -/
theorem glyphAddressIsFiveTimesTheDigit : Obligations.GlyphAddressIsFiveTimesTheDigit := by
  unfold Obligations.GlyphAddressIsFiveTimesTheDigit
  refine fun x s => ⟨fun high => ?_, fun digit => ?_⟩
  · exact ((exec_endsBy (.ldF x) s).eq_fault_iff _).2 ⟨high, rfl⟩
  · exact ⟨_, execLdF_eq_next.2 ⟨⟨(s.v x).toNat, by omega⟩, rfl, rfl⟩,
      s.advance_setI_spec (toNat_glyphAddr _)⟩

end Sys2Proof.Claims
end

section
/-! SUPPORT. A host's operation that raises an error: the state it leaves, the condition it was raised on, and
its repeating (60_exceptions.md R195, R196). -/

namespace Sys2Proof.Machine

variable {s t : State} {op : Word} {i : Instr} {f g : Fault}

/-- Every operation that raises an error leaves the state. -/
theorem eq_of_perform_error {o : Operation} (h : perform o s = (.error f, t)) : t = s := by
  cases o with
  | step r => exact eq_of_performStep_ne_ok h nofun
  | load image =>
    by_cases hlen : 3584 < image.length
    · rw [perform_load_of_gt s hlen] at h
      exact (congrArg Prod.snd h).symm
    · rw [perform_load_of_le s (Nat.le_of_not_gt hlen)] at h
      exact absurd (congrArg Prod.fst h) nofun
  | reset | deliverKey key => exact absurd (congrArg Prod.fst h) nofun

/-- Only RND reads the host's byte, and RND raises no error. -/
theorem perform_step_of_perform_step_error {r : Byte} (h : perform (.step r) s = (.error f, t)) (r' : Byte) :
    perform (.step r') s = (.error f, t) := by
  obtain ⟨-, sameForEveryByte⟩ := Claims.randomIsTheSuppliedByteMasked
  rw [← h]
  refine sameForEveryByte s r' r fun op x kk hf hd => ?_
  have hok : perform (.step r) s = _ := performStep_rnd hf hd r
  rw [hok] at h
  exact absurd (congrArg Prod.fst h) nofun

theorem EndsBy.unique {P : Fault → Prop} {o : Host.Outcome State Fault Refusal} (h : EndsBy P o) (hf : P f)
    (hg : P g) : g = f := by
  rw [← h.eq_fault_iff] at hf hg
  exact Host.Outcome.fault.inj (hg.symm.trans hf)

/-- No condition of an instruction looks at DRAW or at the `rnd` input. -/
theorem raises_clearDraw_setRndInputs (i : Instr) (l : List Byte) (s : State) :
    Raises i (s.setRndInputs l).clearDraw f ↔ Raises i s f := by
  cases i <;> rfl

/-- The condition an instruction meets at the start of its step is the error of the step: what the step does before
executing it changes no condition. -/
theorem perform_step_of_raises (hf : Claims.Fetches s op) (hd : decodeWord op = .ok i) (hraises : Raises i s f)
    (r : Byte) : perform (.step r) s = (.error f, s) := by
  refine performStep_of_fault (State.blocked_of_fetches hf) ?_
  rw [step_of_decodeWord_ok (fetches_setRndInputs [r] hf) hd, finishStep_eq_fault,
    (exec_endsBy i _).eq_fault_iff]
  exact (raises_clearDraw_setRndInputs i [r] s).2 hraises

end Sys2Proof.Machine

namespace Sys2Proof.Claims

open Machine

/-- Settles O16: the state is the one before, so a repeated step is the same step but for its byte. -/
theorem errorsChangeNothingAndRepeat : Obligations.ErrorsChangeNothingAndRepeat := by
  unfold Obligations.ErrorsChangeNothingAndRepeat
  intro o s t f h
  obtain rfl := eq_of_perform_error h
  refine ⟨rfl, ?_⟩
  rintro r rfl
  exact perform_step_of_perform_step_error h

/-- Settles O17: phase by phase, the last by the condition the instruction ends by. -/
theorem stepErrorPriority : Obligations.StepErrorPriority := by
  unfold Obligations.StepErrorPriority
  refine fun s r => ⟨fun hk => perform_step_of_kw hk r, fun hk hpc => ?_,
    fun op hf => ⟨fun e he => ?_, fun i f hd hraises => ?_⟩⟩
  · exact performStep_of_fault hk (step_of_pc_gt hk hpc)
  · exact performStep_of_fault (State.blocked_of_fetches hf)
      (step_of_decodeWord_error (fetches_setRndInputs [r] hf) he)
  · exact ⟨perform_step_of_raises hf hd hraises r, fun g => (exec_endsBy i s).unique hraises⟩

/-- Settles O18: the report's functions hold the table of R190 and the numbers of R192 row by row. -/
theorem reportCodesAndInformation : Obligations.ReportCodesAndInformation := by
  unfold Obligations.ReportCodesAndInformation
  exact ⟨rfl, rfl, rfl, rfl, rfl, rfl, fun _ => rfl, fun _ => ⟨rfl, rfl⟩, fun _ => ⟨rfl, rfl⟩,
    fun _ _ => rfl, fun _ => rfl⟩

end Sys2Proof.Claims
end

section
/-! SUPPORT. The table of 70_reset_and_hazards.md R220, held by the state after reset. -/

namespace Sys2Proof.Machine

theorem glyphs_flatten : Config.glyphs.flatten = Claims.fontTable := rfl

theorem Memory.resetByte_eq_fontTable (a : Nat) : Memory.resetByte a = Claims.fontTable.getD a 0 := by
  rw [Memory.resetByte, glyphs_flatten]

/-- Above the 80 bytes of the font a byte is 0 after reset (10_state.md R14). -/
theorem Memory.resetByte_of_ge {a : Nat} (h : 0x050 ≤ a) : Memory.resetByte a = 0 := by
  have past : Claims.fontTable.length ≤ a := h
  rw [Memory.resetByte_eq_fontTable, List.getD_eq_default _ _ past]

theorem State.reset_mem_read (a : Nat) : State.reset.mem.read a = Memory.resetByte a :=
  Memory.read_nil a

theorem State.reset_v (r : Reg) : State.reset.v r = 0 := by
  simp [State.v, State.reset]

theorem State.reset_stack_get (n : Fin 16) : State.reset.stack[n.val] = 0 := by
  simp [State.reset]

theorem State.reset_pixel (x y : Nat) : State.reset.fb.pixel x y = false := by
  simp [FrameBuffer.pixel, State.reset]

theorem State.reset_key (k : Key) : State.reset.key k = false := by
  simp [State.key, State.reset]

theorem resetTable_reset : Claims.ResetTable State.reset := by
  refine ⟨rfl, fun a _ => ?_, fun a ha _ => ?_, State.reset_v, rfl, State.reset_stack_get, rfl,
    State.reset_pixel, rfl, rfl, State.reset_key, rfl, rfl, rfl, rfl, rfl, rfl⟩
  · rw [State.reset_mem_read, Memory.resetByte_eq_fontTable]
  · rw [State.reset_mem_read, Memory.resetByte_of_ge ha]

/-- The table lists nothing of the `rnd` input, which is all that `reset` leaves of the state before (log 1). -/
theorem resetTable_hostReset (s : State) : Claims.ResetTable (hostReset s) :=
  resetTable_reset

theorem perform_reset (s : State) : perform .reset s = (.ok, hostReset s) := rfl

/-- Of the state before, `reset` reads the `rnd` input only (log 1). -/
theorem perform_reset_congr {s s' : State} (hinputs : s.rndInputs = s'.rndInputs)
    (hcount : s.rndCount = s'.rndCount) : perform .reset s = perform .reset s' := by
  rw [perform_reset, perform_reset, hostReset, hostReset, hinputs, hcount]

end Sys2Proof.Machine
end

section
/-! SUPPORT. The reset operation and the reset state (70_reset_and_hazards.md R220, R221). -/

namespace Sys2Proof.Claims

open Machine

/-- Settles O48: the reset state holds the table, `reset` leaves it but for the `rnd` input, and what ends the
key-wait is as for blocked steps. -/
theorem resetLeavesTheTable : Obligations.ResetLeavesTheTable := by
  unfold Obligations.ResetLeavesTheTable
  refine ⟨resetTable_reset, fun s => ⟨hostReset s, perform_reset s, resetTable_hostReset s⟩,
    fun o s hk hend => ?_⟩
  obtain ⟨-, -, -, onlyResetAndDeliverKey⟩ := blockedStepsChangeNothing s hk
  exact onlyResetAndDeliverKey o hend

/-- Settles O49: a reset leaves the `rnd` input as it finds it and reads nothing else, so the second reset is the
first one again. -/
theorem resetIsIdempotentAndForgets : Obligations.ResetIsIdempotentAndForgets := by
  unfold Obligations.ResetIsIdempotentAndForgets
  exact fun s _ => ⟨perform_reset_congr (s := (perform .reset s).2) rfl rfl, perform_reset_congr⟩

/-- Settles O50: the reset state is where the invariant begins. -/
theorem resetMeetsTheInvariant : Obligations.ResetMeetsTheInvariant := by
  unfold Obligations.ResetMeetsTheInvariant
  exact State.inv_reset

end Sys2Proof.Claims
end
